-- ==== Sys2Proof/Word.lean ====
section
/-! DEFINITION. The plainest words of the KC240: bytes, stations, groups, decks and break entries. -/

namespace Sys2Proof

/-- One byte of a cart store unit, of a bus payload or of the configuration record. -/
abbrev Byte := BitVec 8

/-- A station number, 0 to 15 (00_scope, Identifiers). -/
abbrev Station := Fin 16

/-- A group: 0 audition, 1 air group A, 2 air group B, 3 air group C (00_scope, Identifiers). -/
abbrev Group := Fin 4

/-- A deck number, 0 to 3 (chapter 4). -/
abbrev DeckNo := Fin 4

/-- An entry of the break table, 0 to 7 (R123). -/
abbrev EntryNo := Fin 8

/-- A bit of the cue bus as the line carries it: `false` is dominant (value 0), `true` is recessive
(value 1) (R141). -/
abbrev BusBit := Bool

end Sys2Proof
end

