-- ==== Sys2Proof/Syntax.lean ====
section
/-! DEFINITION. The commands of the KC240: one constructor per row of spec/opcode_table.json, and the
fields a bus frame carries, raw, as chapter 13 lays them out. -/

namespace Sys2Proof

/-- The header fields of a received frame that a command of the cue bus carries (R143). The kind is the command. -/
structure Header where
  priority : BitVec 3
  sender   : BitVec 4
  target   : BitVec 5
  deriving DecidableEq, Repr

/-- FAULT payload (13.2). -/
structure FaultFields where
  group : Byte
  kind  : Byte
  set   : Byte
  deriving DecidableEq, Repr

/-- START payload (13.2). -/
structure StartFields where
  tag     : BitVec 16
  cart    : BitVec 16
  group   : Byte
  cls     : Byte
  breakId : Byte
  start   : BitVec 32
  segue   : BitVec 32
  finish  : BitVec 32
  deriving DecidableEq, Repr

/-- SEGUE payload (13.2). -/
structure SegueFields where
  tag   : BitVec 16
  group : Byte
  time  : BitVec 32
  deriving DecidableEq, Repr

/-- END payload (13.2). -/
structure EndFields where
  tag     : BitVec 16
  group   : Byte
  outcome : Byte
  time    : BitVec 32
  deriving DecidableEq, Repr

/-- LEVEL payload (13.2). -/
structure LevelFields where
  group : Byte
  level : BitVec 16
  deriving DecidableEq, Repr

/-- DUCK payload (13.2). -/
structure DuckFields where
  domain : Byte
  depth  : BitVec 16
  tag    : BitVec 16
  deriving DecidableEq, Repr

/-- BREAK payload (13.2). -/
structure BreakFields where
  id     : Byte
  group  : Byte
  rejoin : BitVec 32
  fill   : BitVec 16
  deriving DecidableEq, Repr

/-- LOAD payload (13.2). -/
structure LoadFields where
  tag      : BitVec 16
  cart     : BitVec 16
  kind     : BitVec 3
  law      : BitVec 2
  group    : BitVec 3
  start    : BitVec 32
  latest   : BitVec 32
  fadeIn   : BitVec 16
  fadeOut  : BitVec 16
  displace : BitVec 16
  duck     : BitVec 16
  breakId  : Byte
  before   : BitVec 16
  deriving DecidableEq, Repr

/-- The break report of a STATUS of 24 bytes (13.3). -/
structure ReportFields where
  id        : Byte
  flags     : Byte
  countdown : BitVec 32
  gap       : BitVec 32
  deriving DecidableEq, Repr

/-- STATUS payload (13.3): its bytes and words as sent; `report` is present in the 24-byte form. -/
structure StatusFields where
  head        : Byte
  partner     : Byte
  trim        : BitVec 16
  rejected    : Byte
  day         : BitVec 16
  decks       : BitVec 16
  recordCount : Byte
  logCount    : Byte
  lostCount   : Byte
  groups      : BitVec 16
  report      : Option ReportFields
  deriving DecidableEq, Repr

/-- ASRUN payload (13.2). -/
structure AsRunFields where
  sequence    : Byte
  tag         : BitVec 16
  cart        : BitVec 16
  group       : Byte
  cls         : Byte
  outcome     : Byte
  reason      : Byte
  breakId     : Byte
  start       : BitVec 32
  finish      : BitVec 32
  aired       : BitVec 32
  substituted : Byte
  flags       : Byte
  deriving DecidableEq, Repr

/-- How a read attempt of the configuration memory ends (R198): not acknowledged, or the bytes read. -/
inductive ConfigRead where
  | failed
  | bytes (data : List Byte)
  deriving DecidableEq, Repr

/-- The commands of the KC240, one per row of spec/opcode_table.json. -/
inductive Instr where
  /-- COLD_RESET (R197): the reset pin; `straps` is what the four station straps read on release. -/
  | coldReset (straps : BitVec 4)
  /-- CONFIG_ATTEMPT_END (R198). -/
  | configAttemptEnd (result : ConfigRead)
  /-- SAMPLE_PERIOD (R1). -/
  | samplePeriod
  /-- CONTROL_PERIOD (R88). -/
  | controlPeriod
  /-- MONITOR_WINDOW (R113). -/
  | monitorWindow
  /-- TIME_PULSE (R4). -/
  | timePulse
  /-- TIME_LABEL (R4): the day number and the second of day that the label names. -/
  | timeLabel (day : BitVec 16) (second : Nat)
  /-- LABEL_WINDOW_EXPIRY (R5). -/
  | labelWindowExpiry
  /-- LABEL_GAP (R9). -/
  | labelGap
  /-- SLEW_RUN (R10). -/
  | slewRun
  /-- STORE_COMPLETION (R21): read number, status GOOD or BAD, and the units returned. -/
  | storeCompletion (number : BitVec 8) (good : Bool) (data : List Byte)
  /-- READ_TIMEOUT (R22). -/
  | readTimeout
  /-- LOAD (R36). -/
  | load (h : Header) (f : LoadFields)
  /-- DROP (R54). -/
  | drop (h : Header) (tag : BitVec 16)
  /-- CLEAR (R55). -/
  | clear (h : Header)
  /-- GO (R52). -/
  | go (h : Header) (group : Byte)
  /-- LEVEL (R86). -/
  | level (h : Header) (f : LevelFields)
  /-- BREAK (R124). -/
  | declareBreak (h : Header) (f : BreakFields)
  /-- TAKE (R184). -/
  | take (h : Header)
  /-- CLEAR_FAULTS (R120). -/
  | clearFaults (h : Header)
  /-- START from a peer (R162). -/
  | peerStart (h : Header) (f : StartFields)
  /-- SEGUE from a peer (R163). -/
  | peerSegue (h : Header) (f : SegueFields)
  /-- END from a peer (R164). -/
  | peerEnd (h : Header) (f : EndFields)
  /-- DUCK from a peer (R165). -/
  | peerDuck (h : Header) (f : DuckFields)
  /-- FAULT from a peer (R166). -/
  | peerFault (h : Header) (f : FaultFields)
  /-- STATUS from a peer (R167). -/
  | peerStatus (h : Header) (f : StatusFields)
  /-- TAKEN from a peer (R187). -/
  | peerTaken (h : Header)
  /-- ASRUN from a peer (R167). -/
  | peerAsrun (h : Header) (f : AsRunFields)
  /-- FRAME_NOT_HANDED (R153): the bits the line carried, from the start bit through the end bits, fill bits included. -/
  | frameNotHanded (bits : List BusBit)
  /-- FRAME_BEGIN (R144). -/
  | frameBegin
  /-- ARBITRATION_LOST (R145). -/
  | arbitrationLost
  /-- BIT_ERROR (R146). -/
  | bitError
  /-- FRAME_COMPLETE (R149). -/
  | frameComplete
  /-- QUIET_EXPIRY (R148). -/
  | quietExpiry
  /-- START_TIME_EXPIRY (R46), of the record with this tag. -/
  | startTimeExpiry (tag : Nat)
  /-- LATEST_START_EXPIRY (R53), of the record with this tag. -/
  | latestStartExpiry (tag : Nat)
  /-- SCHEDULED_START_EXPIRY (R171), of the record with this tag. -/
  | scheduledStartExpiry (tag : Nat)
  /-- SEGUE_MARK (R72), at this deck. -/
  | segueMark (deck : DeckNo)
  /-- FADE_MARK (R77), at this deck. -/
  | fadeMark (deck : DeckNo)
  /-- FADE_IN_END (R73), at this deck. -/
  | fadeInEnd (deck : DeckNo)
  /-- TRUNCATION_FADE_BEGIN (R78), at this deck. -/
  | truncationFadeBegin (deck : DeckNo)
  /-- BLOCK_ENTERED (R69), at this deck. -/
  | blockEntered (deck : DeckNo)
  /-- ITEM_END (R80), at this deck. -/
  | itemEnd (deck : DeckNo)
  /-- SKIP_SILENT (R82), at this deck. -/
  | skipSilent (deck : DeckNo)
  /-- GATE_OPEN (R109). -/
  | gateOpen
  /-- GATE_CLOSED (R109). -/
  | gateClosed
  /-- YIELD_TO_SHADOW (R188). -/
  | yieldToShadow
  /-- REJOIN_GUARD (R137), of this break entry. -/
  | rejoinGuard (entry : EntryNo)
  /-- FILL_FADE_EXPIRY (R135), of this break entry. -/
  | fillFadeExpiry (entry : EntryNo)
  /-- ID_HOLD_EXPIRY (R138), of this break entry. -/
  | idHoldExpiry (entry : EntryNo)
  /-- PEER_LOSS (R161), of this station. -/
  | peerLoss (station : Station)
  /-- STATUS_BEACON (R175). -/
  | statusBeacon
  /-- START_UP_LISTEN_EXPIRY (R201). -/
  | startUpListenExpiry
  /-- LISTEN_EXPIRY (R178). -/
  | listenExpiry
  /-- ABSENT_WATCH (R177). -/
  | absentWatch
  /-- TAKEN_WINDOW_EXPIRY (R185). -/
  | takenWindowExpiry
  /-- LINE_IDLE (R142). -/
  | lineIdle
  deriving DecidableEq, Repr

end Sys2Proof
end

