-- ==== Sys2Proof/Decode.lean ====
section
/-! DEFINITION. The command that a word of the opcode table spells. No row of spec/opcode_table.json gives
bits ("fields" is empty in all 57 rows and none has "fixed"), so no word spells a command. The frames of the cue bus, which
do spell commands, are read in Machine/Formats.lean. -/

namespace Sys2Proof

/-- The command spelled by `nbits` bits `w` of a table row: none, since no row gives bits. -/
def decodeTableWord (_nbits _w : Nat) : Option Instr := none

end Sys2Proof
end

