-- ==== Sys2Proof/Config.lean ====
section
/-! DEFINITION. What one KC240 fixes and the manual leaves open. -/

namespace Sys2Proof

/-- How many sample periods of the run of R10 already count when a label replaces a slew that is still
owed by another slew. R10 replaces the remainder and says nothing of the run in progress: a free value of the
run before (assumption 5). -/
opaque Config.slewRunAfterReplace : Nat → Nat

/-- Which of two rules a DROP follows while the store-end fade runs: R71 has it compared with that fade by R76, R54 gives it no effect on
a FADING deck, and the manual does not say which holds. Free: set is R71, clear is R54 (assumption 36). -/
opaque Config.storeEndTakesDrop : Bool

end Sys2Proof
end

