-- ==== Sys2Proof/Machine/State.lean ====
section
/-! DEFINITION. The state of the KC240, block by block, and the state after cold reset. Field defaults are the
after-reset values of the chapters' state tables. -/

namespace Sys2Proof.Machine

/-! ### Timebase (chapter 1) -/

/-- Clock states (1.3). -/
inductive ClockState where
  | free | acquire | locked | holdover
  deriving DecidableEq, Repr

/-- The last valid label: the sample period in which it was handled, and whether a step handled it (R4, R6). -/
structure LastLabel where
  period : Nat
  byStep : Bool
  deriving DecidableEq, Repr

/-- The pending pulse: own air time and day number latched at the pulse (R4). The label window is open while it is held. -/
structure Pulse where
  airTime : Nat
  day     : Nat
  deriving DecidableEq, Repr

/-- The Timebase's clock (state table of chapter 1). `slewRun` is the run count of R10. -/
structure Clock where
  airTime   : Nat := 0
  day       : Nat := 0
  state     : ClockState := .free
  good      : Nat := 0
  remainder : Int := 0
  trim      : Int := 0
  offset    : Bool := false
  rejected  : Nat := 0
  pulse     : Option Pulse := none
  lastLabel : Option LastLabel := none
  slewRun   : Nat := 0
  deriving DecidableEq, Repr

/-- Owners' handles of air-time expiries (R13): the three of a cue record, named by tag, and the three of a break entry. -/
inductive AirHandle where
  | startTime (tag : Nat)
  | latestStart (tag : Nat)
  | scheduledStart (tag : Nat)
  | rejoin (e : EntryNo)
  | fillFade (e : EntryNo)
  | idHold (e : EntryNo)
  deriving DecidableEq, Repr

/-- Owners' handles of interval expiries (R14). -/
inductive IntervalHandle where
  | labelWindow | labelGap | readTimeout | beacon | startUpListen | listen | absentWatch | takenWindow | quiet
  | peerLoss (q : Station)
  deriving DecidableEq, Repr

/-- A pending air-time expiry (R13); the list that holds them is in the order in which they were set. -/
structure AirExpiry where
  handle : AirHandle
  target : Nat
  deriving DecidableEq, Repr

/-- A pending interval expiry (R14): it fires in the sample period whose number is `deadline`. -/
structure IntervalExpiry where
  handle   : IntervalHandle
  deadline : Nat
  deriving DecidableEq, Repr

/-! ### Store reader (chapter 2) -/

/-- Cart classes (R19, 13.1). -/
inductive CartClass where
  | song | jingle | advert | liner | pad
  deriving DecidableEq, Repr

/-- A header snapshot (2.2). -/
structure Snapshot where
  cls        : CartClass
  format     : Nat
  length     : Nat
  elen       : Nat
  segue      : Nat
  fadeMark   : Option Nat
  fadeLen    : Nat
  trim       : Int
  firstBlock : Nat
  blocks     : Nat
  deriving DecidableEq, Repr

/-- The owner of a header fetch (2.4): a cue record, by tag, or a break entry. -/
inductive Owner where
  | record (tag : Nat)
  | fill (e : EntryNo)
  deriving DecidableEq, Repr

/-- A fetch waiting in the header-fetch queue (R23). -/
structure Fetch where
  owner : Owner
  cart  : Nat
  deriving DecidableEq, Repr

/-- The fetch in progress (R25): `header` is the header address once the directory has given it; `stale` says that
its outcome is no longer wanted because the break entry changed its fill cart (R125). -/
structure FetchInProgress where
  owner  : Owner
  cart   : Nat
  header : Option Nat := none
  stale  : Bool := false
  deriving DecidableEq, Repr

/-- A read's purpose, with its requester (2.3). -/
inductive Purpose where
  | directory
  | header
  | block (deck : DeckNo) (slot : Fin 16) (block : Nat)
  deriving DecidableEq, Repr

/-- The read in flight (2.3), with the start unit and the count of units it names. -/
structure StoreRead where
  purpose   : Purpose
  unit      : Nat
  units     : Nat
  number    : Nat
  retry     : Bool
  abandoned : Bool
  deriving DecidableEq, Repr

/-- The store reader (state table of 2.3). `waiting` holds the break entries waiting for room, longest first, with the
air time at which each began to wait (R24). -/
structure StoreReader where
  flight     : Option StoreRead := none
  nextNumber : Nat := 0
  queue      : List Fetch := []
  waiting    : List (EntryNo × Nat) := []
  fetch      : Option FetchInProgress := none
  arbiter    : DeckNo := 3
  deriving DecidableEq, Repr

/-! ### Running order (chapter 3) and as-run log (chapter 11) -/

inductive StartKind where
  | hardAt | softAt | afterPrev | followPrev | afterPeer | go
  deriving DecidableEq, Repr

inductive Law where
  | linear | log
  deriving DecidableEq, Repr

/-- Record states (3.3). -/
inductive RecState where
  | headerWait | queued | bound | armed | onAir | clearing
  deriving DecidableEq, Repr

/-- Outcomes of a departure (R57, R190). -/
inductive AirOutcome where
  | complete | faded | truncated | skippedSilent | dropped | refused | shadow
  deriving DecidableEq, Repr

/-- Reasons of a departure or refusal (R190). -/
inductive Reason where
  | none | byLoader | displaced | store | noFit | overtaken | cleared | full | duplicate | reservedTag | badField
  | noCart | header
  deriving DecidableEq, Repr

/-- An outcome with its reason: the cause of a fade, an end or a departure. -/
structure Cause where
  outcome : AirOutcome
  reason  : Reason
  deriving DecidableEq, Repr

/-- The flags of a cue record (R35). -/
structure RecFlags where
  coldStart  : Bool := false
  lateStart  : Bool := false
  underrun   : Bool := false
  takenMid   : Bool := false
  yieldedMid : Bool := false
  deriving DecidableEq, Repr

/-- A cue record (3.2). `displaced` is the model's own mark that displacement and overtaking have been applied (R46: once
per HARD_AT record). -/
structure CueRecord where
  tag         : Nat
  cart        : Nat
  group       : Group
  kind        : StartKind
  startTime   : Option Nat
  peer        : Option (Station × Nat)
  latest      : Option Nat
  fadeIn      : Nat
  law         : Law
  fadeOut     : Option Nat
  displace    : Nat
  duck        : Nat
  breakId     : Option Nat
  snapshot    : Option Snapshot := none
  state       : RecState := .headerWait
  deck        : Option DeckNo := none
  triggered   : Bool := false
  scheduled   : Option Nat := none
  shadowStart : Option Nat := none
  actualStart : Option Nat := none
  truncEnd    : Option Nat := none
  airedLive   : Bool := false
  setAside    : Bool := false
  displaced   : Bool := false
  flags       : RecFlags := {}
  deriving DecidableEq, Repr

/-- An as-run record (R190). -/
structure AsRun where
  sequence    : Nat := 0
  tag         : Nat
  cart        : Nat
  group       : Nat
  cls         : Option CartClass
  outcome     : AirOutcome
  reason      : Reason
  breakId     : Option Nat
  start       : Option Nat
  finish      : Option Nat
  aired       : Nat
  substituted : Nat
  flags       : RecFlags
  deriving DecidableEq, Repr

/-- The as-run log (11.1); `offer` is the sequence of the record offered, absent while the offer state is IDLE. -/
structure AsRunLog where
  records : List AsRun := []
  nextSeq : Nat := 0
  lost    : Nat := 0
  offer   : Option Nat := none
  deriving DecidableEq, Repr

/-! ### Decks (chapter 4) -/

inductive DeckState where
  | idle | priming | armed | playing | fading
  deriving DecidableEq, Repr

/-- A slot of the prefetch ring (R61). A FILLED slot holds the block's bytes as the store returned them; bytes past the
list read as zero, so a substituted block is FILLED with the empty list (R70). -/
inductive Slot where
  | free
  | inFlight (block : Nat)
  | filled (block : Nat) (audio : List Byte)
  deriving DecidableEq, Repr

/-- The item values a deck copies at binding (R60), the trim among them (chapter 5, 5.4). -/
structure Item where
  group      : Group
  cls        : CartClass
  format     : Nat
  firstBlock : Nat
  elen       : Nat
  segue      : Nat
  fadeMark   : Option Nat
  fadeLen    : Nat
  blocks     : Nat
  trim       : Int
  fadeIn     : Nat
  law        : Law
  duck       : Nat
  breakId    : Option Nat
  deriving DecidableEq, Repr

structure FadeIn where
  pos : Nat
  len : Nat
  deriving DecidableEq, Repr

structure FadeOut where
  pos   : Nat
  len   : Nat
  law   : Law
  cause : Cause
  deriving DecidableEq, Repr

/-- The scheduled truncation fade (R78). -/
structure TruncFade where
  begin_ : Nat
  len    : Nat
  deriving DecidableEq, Repr

/-- A deck (4.1). `playBlock` and `fadeMarkDone` are the model's own: the block last entered (R69) and whether the
fade mark has made its request (R77). The duck request and gain words are held by the mix unit, the skip-silent timer by
the output monitor. -/
structure Deck where
  state        : DeckState := .idle
  bound        : Option Nat := none
  item         : Option Item := none
  ring         : Vector Slot 16 := Vector.replicate 16 .free
  fetchPtr     : Nat := 0
  fetchLimit   : Nat := 0
  p            : Nat := 0
  endPos       : Nat := 0
  actualStart  : Option Nat := none
  fadeIn       : Option FadeIn := none
  fadeOut      : Option FadeOut := none
  trunc        : Option TruncFade := none
  segued       : Bool := false
  storeEnd     : Bool := false
  substituted  : Nat := 0
  run          : Nat := 0
  aired        : Nat := 0
  duckValue    : Nat := 0
  storeFlag    : Bool := false
  playBlock    : Nat := 0
  fadeMarkDone : Bool := false
  deriving DecidableEq, Repr

/-! ### Gain and mix unit (chapters 5 and 6) -/

/-- A level: OFF, or signed tenths of a decibel (00_scope, Levels). -/
inductive Level where
  | off
  | tenths (t : Int)
  deriving DecidableEq, Repr

/-- A local duck request (R99). -/
structure DuckRequest where
  domain : Nat
  depth  : Nat
  tag    : Nat
  deriving DecidableEq, Repr

inductive GateState where
  | closed | opening | opened | closing
  deriving DecidableEq, Repr

/-- The air gate (6.2). -/
structure Gate where
  state  : GateState := .opened
  weight : Nat := 960
  deriving DecidableEq, Repr

/-- The gain and mix unit (5.1). The levels are indexed by group: 0 is La, 1 to 3 are L1 to L3. Domains and
steps are read from the configuration record. `duckBase` is the model's own: the decks' duck values as they stood before the
computation of the control period, from which it is made afresh for what came later in the same sample period (R88). -/
structure Mix where
  master   : Level := .tenths 0
  levels   : Vector Level 4 := Vector.replicate 4 (.tenths 0)
  requests : Vector (Option DuckRequest) 4 := Vector.replicate 4 none
  lastWord : Vector Nat 4 := Vector.replicate 4 0
  newWord  : Vector Nat 4 := Vector.replicate 4 0
  duckBase : Vector Nat 4 := Vector.replicate 4 0
  gate     : Gate := {}
  deriving DecidableEq, Repr

/-- One stereo frame of 24-bit samples. -/
structure StereoFrame where
  left  : Int
  right : Int
  deriving DecidableEq, Repr

/-- The frames now on the four serial outputs (R111). -/
structure Outputs where
  airA     : StereoFrame
  airB     : StereoFrame
  airC     : StereoFrame
  audition : StereoFrame
  deriving DecidableEq, Repr

/-! ### Output monitor (chapter 6) -/

inductive MonState where
  | suspended | sounding | silent | deadAir
  deriving DecidableEq, Repr

/-- The window record (R113). -/
structure Window where
  peak      : Nat := 0
  sounding  : Bool := false
  overload  : Bool := false
  wholeLive : Bool := true
  deriving DecidableEq, Repr

/-- The monitor state of one air group (6.4). -/
structure GroupMonitor where
  state        : MonState := .sounding
  silence      : Nat := 0
  overloadRun  : Nat := 0
  deadAirFlag  : Bool := false
  overloadFlag : Bool := false
  window       : Window := {}
  deriving DecidableEq, Repr

/-- A STORE FAULT that waits: the sample period in which it arose, and its group (R119). -/
structure StoreFault where
  period : Nat
  group  : Nat
  deriving DecidableEq, Repr

/-- The output monitor: air groups A, B, C are indices 0, 1, 2. `full` is the model's own: the 480th sample period of the
window has been mixed and the window awaits its judgement. `storeFaults` is the model's own: the STORE FAULTs that wait for the
other FAULTs of the sample period in which they arose (R119). -/
structure Monitor where
  groups      : Vector GroupMonitor 3 := Vector.replicate 3 {}
  timers      : Vector Nat 4 := Vector.replicate 4 0
  full        : Bool := false
  storeFaults : List StoreFault := []
  deriving DecidableEq, Repr

/-! ### Break fitter (chapter 7) -/

inductive BreakState where
  | free | declared | running | ended
  deriving DecidableEq, Repr

inductive FillState where
  | none | waiting | ready | failed
  deriving DecidableEq, Repr

inductive FillStatus where
  | unplaced | placed | spent
  deriving DecidableEq, Repr

/-- A fill fade: its length, its begin time, and whether it has begun (R135). -/
structure FillFade where
  len    : Nat
  begin_ : Nat
  begun  : Bool
  deriving DecidableEq, Repr

/-- An entry of the break table (R123). -/
structure BreakEntry where
  state        : BreakState := .free
  id           : Nat := 0
  group        : Group := 0
  rejoin       : Nat := 0
  fillCart     : Option Nat := none
  fillState    : FillState := .none
  fillSnapshot : Option Snapshot := none
  fillStatus   : FillStatus := .unplaced
  fillFade     : Option FillFade := none
  projected    : Option Nat := none
  short        : Bool := false
  overrunDrops : Bool := false
  idHold       : Bool := false
  deriving DecidableEq, Repr

/-- The break fitter (R123), with the report position of R203. -/
structure Breaks where
  entries   : Vector BreakEntry 8 := Vector.replicate 8 {}
  full      : Bool := false
  reportPos : EntryNo := 7
  deriving DecidableEq, Repr

/-! ### Cue bus controller (chapter 8) -/

inductive SendState where
  | held | enabled | quiet
  deriving DecidableEq, Repr

inductive LineState where
  | waitIdle | idle | receiving | sending | flagging
  deriving DecidableEq, Repr

/-- A notice of the cue bus, of one of the 16 kinds of 13.2, with its payload fields raw. -/
inductive Notice where
  | take
  | taken
  | fault (f : FaultFields)
  | start (f : StartFields)
  | segue (f : SegueFields)
  | finish (f : EndFields)
  | go (group : Byte)
  | level (f : LevelFields)
  | duck (f : DuckFields)
  | clearFaults
  | load (f : LoadFields)
  | drop (tag : BitVec 16)
  | clear
  | declareBreak (f : BreakFields)
  | status (f : StatusFields)
  | asrun (f : AsRunFields)
  deriving DecidableEq, Repr

/-- A queued notice (chapter 8): its content, the order in which it was handed, and its error count. Its target is 31 and
its class that of its kind (R150). -/
structure Queued where
  notice : Notice
  order  : Nat
  errors : Nat
  deriving DecidableEq, Repr

/-- The cue bus controller. `flight` is the handing order of the notice in flight; `handed` is the model's own count that
gives the next notice its order. -/
structure CueBus where
  send      : SendState := .held
  line      : LineState := .waitIdle
  recessive : Nat := 0
  queue     : List Queued := []
  flight    : Option Nat := none
  held      : Option StatusFields := none
  errorRun  : Nat := 0
  foreign   : Bool := false
  busError  : Bool := false
  txDiscard : Bool := false
  duplicate : Bool := false
  handed    : Nat := 0
  deriving DecidableEq, Repr

/-! ### Peer table (chapter 9) -/

inductive Presence where
  | absent | present | lost
  deriving DecidableEq, Repr

inductive RoleState where
  | live | shadow | listen
  deriving DecidableEq, Repr

/-- An announced item (R159). `stamp` is the model's own arrival order, which tells the newest of several entries' items
(R173). -/
structure Announced where
  tag       : Nat
  group     : Nat
  start     : Option Nat
  segue     : Option Nat
  finish    : Option Nat
  segued    : Bool
  segueTime : Option Nat
  stamp     : Nat
  deriving DecidableEq, Repr

/-- The fault flags of one group of a peer (R159). -/
structure PeerFaults where
  deadAir  : Bool := false
  overload : Bool := false
  store    : Bool := false
  deriving DecidableEq, Repr

/-- An entry of the peer table (R159). Absent `clock` or `role` is NONE; lists are oldest first. -/
structure Peer where
  presence  : Presence := .absent
  lastHeard : Option Nat := none
  clock     : Option ClockState := none
  role      : Option RoleState := none
  partner   : Option Station := none
  items     : List Announced := []
  ended     : List Nat := []
  ducks     : List DuckRequest := []
  faults    : Vector PeerFaults 4 := Vector.replicate 4 {}
  deriving DecidableEq, Repr

structure PeerTable where
  entries : Vector Peer 16 := Vector.replicate 16 {}
  stamps  : Nat := 0
  deriving DecidableEq, Repr

/-! ### Pair controller (chapter 10) and configuration (chapter 12) -/

inductive RoleSetting where
  | solo | main | standby
  deriving DecidableEq, Repr

/-- The pair controller. The role setting and the partner stand in the configuration record; the TAKEN window, the listen
expiry and the absent watch are open while the Timebase holds their interval expiries. `closedAt` is the sample period in
which the gate's closed report was made (R188). -/
structure Pair where
  role     : RoleState := .live
  yielding : Bool := false
  closedAt : Option Nat := none
  deriving DecidableEq, Repr

/-- The configuration record as taken, clamped by R199; the defaults of R198. `startLevels` is indexed by group. -/
structure ConfigRecord where
  setting     : RoleSetting := .solo
  partner     : Option Station := none
  mask        : BitVec 16 := 0xFFFF
  domains     : Vector Nat 3 := ⟨#[1, 2, 3], rfl⟩
  attack      : Vector Nat 8 := Vector.replicate 8 3
  release     : Vector Nat 8 := Vector.replicate 8 1
  master      : Level := .tenths 0
  startLevels : Vector Level 4 := Vector.replicate 4 (.tenths 0)
  threshold   : Nat := 16384
  deadAir     : Nat := 8
  skipSilent  : Nat := 0
  deriving DecidableEq, Repr

/-- Where start-up stands (R197, R200): the configuration record is being read, or sample periods run. -/
inductive Phase where
  | configuring | running
  deriving DecidableEq, Repr

/-! ### Reactions -/

/-- How a header fetch ends: with a snapshot, or with NO_CART, HEADER or STORE (2.4). -/
inductive FetchOutcome where
  | snapshot (sn : Snapshot)
  | failed (r : Reason)
  deriving DecidableEq, Repr

/-- What a step has still to do inside itself: one block telling another, in the order the rules give. -/
inductive Task where
  /-- An air-time expiry is delivered with its lateness (R13). -/
  | fired (h : AirHandle) (late : Nat)
  /-- Every air-time expiry that tests due is delivered, in R13's order (R15). -/
  | fireDue
  /-- A trigger reaches a record (R44, R46, R180). -/
  | trigger (tag : Nat)
  /-- The answer of R44's table, displacement and overtaking done. -/
  | answer (tag : Nat)
  /-- A record with a deck starts; `since` is a shadow start (R45, R181). -/
  | start (tag : Nat) (since : Option Nat) (cold late : Bool)
  /-- A record's deck is primed (R43). -/
  | armed (tag : Nat)
  /-- A record's start condition is judged at its creation (R38 step 4, R40). -/
  | judgeNew (tag : Nat)
  /-- A record's predecessor has changed (R50). -/
  | rejudge (tag : Nat)
  /-- A record's predecessor has reached its segue mark (R47, R48). -/
  | followSegue (tag : Nat)
  /-- A record's predecessor has left after having started (R47 to R49). -/
  | followEnd (tag : Nat)
  /-- Binding runs (R41, R42). -/
  | bind
  /-- The break fitter is told that a record carrying a break id joined (R38). -/
  | joined (tag : Nat)
  /-- The break fitter is told that a record carrying a break id started (R45). -/
  | memberStarted (tag : Nat)
  /-- The break fitter is told that a record with this break id and group left, as a fill record or not (R57, R136). -/
  | memberLeft (id : Nat) (group : Group) (fill : Bool)
  /-- A deck whose item has ended returns to IDLE (R80 step 4). -/
  | deckIdle (d : DeckNo)
  /-- The break fitter is told that a record's fetch ended with a snapshot (R129). -/
  | memberReady (tag : Nat)
  /-- A newly declared break looks for members already sounding (R124, R128). -/
  | lookForMembers (e : EntryNo)
  /-- A fit of a RUNNING break (R129). -/
  | fit (e : EntryNo)
  /-- A header fetch has ended: its owner takes the outcome (R25, R39, R126). -/
  | fetchEnded (f : FetchInProgress) (outcome : FetchOutcome)
  /-- The store-end fade of an item that starts with the store-end mark set (R71). -/
  | storeEnd (d : DeckNo)
  /-- The marks and the end that fall at the deck's position (R66, R77, R78, R72, R79). -/
  | fadeMark (d : DeckNo)
  | truncBegin (d : DeckNo)
  | segueMark (d : DeckNo)
  | seguePast (tag : Nat)
  | itemEnd (d : DeckNo)
  /-- Peer coupling hears a START from a source station (R169). -/
  | peerStart (q : Station) (tag : Nat) (segue : Option Nat)
  /-- Peer coupling hears a SEGUE or END from a station (R170). -/
  | peerMark (q : Station) (tag : Nat)
  /-- Peer coupling triggers one record if it still waits (R170). -/
  | peerTrigger (tag : Nat)
  /-- The pair controller hears the partner's START or END (R181, R182). -/
  | partnerStart (tag : Nat) (start : Option Nat)
  | partnerEnd (tag : Nat)
  /-- The store reader grants while the port is idle and a request stands (R28). -/
  | grant
  /-- No reaction: inside a reaction it stands between what waited behind it and what it asks for. -/
  | boundary
  deriving DecidableEq, Repr

/-! ### The machine -/

/-- The whole machine. `period` numbers the sample period in progress (0 before the first, R3). `controlDone` is the model's own:
the computation of this control period has been made (R88). `work` holds reactions of a step that are
still to be carried out: empty between steps (assumption 2). `pending` is the queue of commands. -/
structure State where
  phase         : Phase := .configuring
  attempts      : Nat := 0
  configDefault : Bool := false
  cfg           : ConfigRecord := {}
  ownStation    : Station := 0
  clock         : Clock := {}
  period        : Nat := 0
  controlDone   : Bool := false
  airExpiries   : List AirExpiry := []
  intervals     : List IntervalExpiry := []
  reader        : StoreReader := {}
  records       : List CueRecord := []
  decks         : Vector Deck 4 := Vector.replicate 4 {}
  mix           : Mix := {}
  out           : Option Outputs := none
  monitor       : Monitor := {}
  breaks        : Breaks := {}
  bus           : CueBus := {}
  peers         : PeerTable := {}
  pair          : Pair := {}
  log           : AsRunLog := {}
  work          : List Task := []
  pending       : List Instr := []
  deriving DecidableEq, Repr

/-- Reasons for which a step stops with a fault: none. Every command has an effect in the manual. -/
inductive Fault where
  deriving DecidableEq, Repr

/-- Reasons for which a command is refused. -/
inductive Refusal where
  /-- Raised by `exec` alone, for a command that has no meaning yet, named as the opcode table names it. Safe: the
  machine stops. No arm of this model raises it. -/
  | notModelled (mnemonic : String)
  deriving DecidableEq, Repr

/-- The machine right after cold reset, before the configuration record is read: every field at the value its
chapter's table gives (the field defaults above). Straps read 0, what the configuration record will set holds the defaults of
R198, and CONFIG_DEFAULT is clear until the read has ended: the manual gives these no value before that (assumption 1). -/
def State.reset : State := {}

end Sys2Proof.Machine
end

