-- ==== Sys2Proof/Machine/Time.lean ====
section
/-! DEFINITION. Air time arithmetic and rounding (00_scope, Conventions; R2). -/

namespace Sys2Proof.Machine

/-- The day length, Dlen. -/
def dayLength : Nat := 4147200000

/-- Half the day length, the reach of the due test. -/
def halfDay : Nat := 2073600000

/-- A sum of times, modulo Dlen (R2). -/
def addAir (a b : Nat) : Nat := (a + b) % dayLength

/-- A difference of times, modulo Dlen (R2). -/
def subAir (a b : Nat) : Nat := (a + (dayLength - b % dayLength)) % dayLength

/-- The due test of R2: (now − T) mod Dlen is below half the day. -/
def isDue (target now : Nat) : Bool := decide (subAir now target < halfDay)

/-- The lateness of a due target (R2). -/
def lateness (target now : Nat) : Nat := subAir now target

/-- A signed number held within a range. -/
def clampInt (lo hi x : Int) : Int := max lo (min hi x)

/-- ⌈n / d⌉. -/
def ceilDiv (n d : Nat) : Nat := (n + d - 1) / d

/-- n / d rounded, halves up (00_scope, Numbers and encodings). -/
def roundDiv (n d : Nat) : Nat := (2 * n + d) / (2 * d)

/-- A length in milliseconds, clamped to 10,000, in samples (00_scope, Time; R37). -/
def msToSamples (ms : Nat) : Nat := min ms 10000 * 48

/-- A signed 16-bit field. -/
def signed16 (n : Nat) : Int := if n < 32768 then n else (n : Int) - 65536

end Sys2Proof.Machine
end

