-- ==== Sys2Proof/Machine/Gain.lean ====
section
/-! DEFINITION. The gain arithmetic of chapter 5 and the mixing arithmetic of chapter 6, exact: fade contribution,
composite, gain word, LINEAR fade, ramp, output sample, saturation, gate. -/

namespace Sys2Proof.Machine

/-- The fade a deck holds, as stage 1 and stage 4 read it (R89). -/
structure FadeTerm where
  fadesIn : Bool
  pos     : Nat
  len     : Nat
  law     : Law
  deriving DecidableEq, Repr

/-- Stage 1: the LOG fade contribution F, absent where the stage yields word 0 (R90). -/
def fadeContribution : Option FadeTerm → Option Int
  | none => some 0
  | some f =>
    match f.law with
    | .linear => some 0
    | .log =>
      if f.fadesIn then
        if f.pos = 0 then none
        else if f.pos < f.len then some (-600 + (600 * f.pos / f.len : Nat))
        else some 0
      else if f.pos < f.len then some (-(600 * f.pos / f.len : Nat)) else none

/-- The term a level adds to the composite: none for OFF, which yields word 0 (R91). -/
def Level.term : Level → Option Int
  | .off => none
  | .tenths t => some t

/-- Stage 2: the composite C, absent where the stage yields word 0 (R91, R92). `master` is absent for group 0. -/
def composite (trim : Int) (master : Option Level) (level : Level) (duck : Nat) (fade : Int) : Option Int :=
  match (match master with | none => some 0 | some m => m.term), level.term with
  | some m, some l =>
    let c := trim + m + l - duck + fade
    if c < -900 then none else some (min 120 c)
  | _, _ => none

/-- `g` is at most the word of the composite: 2g − 1 is at most 2 × 1,048,576 × 10^(C/200), both raised to the 200th
power (R93). -/
def wordAtMost (c : Int) (g : Nat) : Bool :=
  decide ((2 * g - 1) ^ 200 * 10 ^ (-c).toNat ≤ 2 ^ 4200 * 10 ^ c.toNat)

/-- Stage 3: round(1,048,576 × 10^(C/200)), halves up, found bit by bit (R93). -/
def gainWord (c : Int) : Nat :=
  [22, 21, 20, 19, 18, 17, 16, 15, 14, 13, 12, 11, 10, 9, 8, 7, 6, 5, 4, 3, 2, 1, 0].foldl
    (fun g b => if wordAtMost c (g + 2 ^ b) then g + 2 ^ b else g) 0

/-- Stage 4: a LINEAR fade applied to a word (R94). -/
def linearFade (g : Nat) : Option FadeTerm → Nat
  | none => g
  | some f =>
    match f.law with
    | .log => g
    | .linear =>
      if f.fadesIn then (if f.pos < f.len then g * f.pos / f.len else g)
      else if f.pos < f.len then g * (f.len - f.pos) / f.len else 0

/-- Stages 1 to 4: a deck's new gain word (R88). -/
def newGainWord (trim : Int) (master : Option Level) (level : Level) (duck : Nat) (fade : Option FadeTerm) : Nat :=
  match fadeContribution fade with
  | none => 0
  | some f =>
    match composite trim master level duck f with
    | none => linearFade 0 fade
    | some c => linearFade (gainWord c) fade

/-- Stage 5: the ramped gain of sample `k` of the control period, the quotient taken toward zero (R95). -/
def rampGain (last new k : Nat) : Int := last + Int.tdiv (((new : Int) - last) * (k + 1)) 48

/-- Stage 6: a deck's output sample, rounded with halves up (R97). -/
def outputSample (x g : Int) : Int := (x * g + 524288).fdiv 1048576

/-- A sum held to the 24-bit range (R107). -/
def saturate (x : Int) : Int := clampInt (-8388608) 8388607 x

/-- The sample sent through the air gate at weight `w` (R108). -/
def gateSample (s : Int) (w : Nat) : Int := (s * w + 480).fdiv 960

/-- One step of a duck value toward its target (R102). -/
def stepDuck (d target attack release : Nat) : Nat :=
  if d < target then min (d + attack) target
  else if target < d then max (d - release) target
  else d

end Sys2Proof.Machine
end

