-- ==== Sys2Proof/Machine/Formats.lean ====
section
/-! DEFINITION. Every layout that crosses the part's boundary (chapter 13): the CRC, the bus frame with its fill bits,
the notice payloads, the cart header and the configuration record. -/

namespace Sys2Proof.Machine

/-! ### Bytes and bits, most significant first -/

/-- The bits of a field, most significant first. -/
def bitsOf {n : Nat} (x : BitVec n) : List BusBit := (List.range n).map fun i => x.getMsbD i

/-- The bits of a sequence of bytes. -/
def bytesToBits (bs : List Byte) : List BusBit := bs.flatMap bitsOf

/-- The number that bits spell, most significant first. -/
def bitsToNat (bs : List BusBit) : Nat := bs.foldl (fun a b => 2 * a + b.toNat) 0

/-- Bits taken eight at a time as bytes. -/
def bitsToBytes : Nat → List BusBit → List Byte
  | 0, _ => []
  | n + 1, bs => BitVec.ofNat 8 (bitsToNat (bs.take 8)) :: bitsToBytes n (bs.drop 8)

def be16 (x : BitVec 16) : List Byte := [x.extractLsb' 8 8, x.extractLsb' 0 8]

def be32 (x : BitVec 32) : List Byte :=
  [x.extractLsb' 24 8, x.extractLsb' 16 8, x.extractLsb' 8 8, x.extractLsb' 0 8]

/-- The big-endian number of `size` bytes from `off`. Bytes past the end read as zero. -/
def readBE (bs : List Byte) (off size : Nat) : Nat :=
  (List.range size).foldl (fun a k => 256 * a + (bs.getD (off + k) 0).toNat) 0

/-- One bit shifted into the CRC register: polynomial 0x1021, no reflection (13.1). -/
def crcStep (r : BitVec 16) (b : BusBit) : BitVec 16 :=
  if r.msb ^^ b then (r <<< 1) ^^^ 0x1021 else r <<< 1

/-- CRC-16 with initial value 0xFFFF and no final inversion (13.1). -/
def crc16 (bits : List BusBit) : BitVec 16 := bits.foldl crcStep 0xFFFF

/-! ### Codes -/

def CartClass.code : CartClass → Nat
  | .song => 1 | .jingle => 2 | .advert => 3 | .liner => 4 | .pad => 5

def AirOutcome.code : AirOutcome → Nat
  | .complete => 1 | .faded => 2 | .truncated => 3 | .skippedSilent => 4 | .dropped => 5 | .refused => 6 | .shadow => 7

def Reason.code : Reason → Nat
  | .none => 0 | .byLoader => 1 | .displaced => 2 | .store => 3 | .noFit => 4 | .overtaken => 5 | .cleared => 6
  | .full => 7 | .duplicate => 8 | .reservedTag => 9 | .badField => 10 | .noCart => 11 | .header => 12

def ClockState.code : ClockState → BitVec 2
  | .free => 0 | .acquire => 1 | .locked => 2 | .holdover => 3

def RoleState.code : RoleState → BitVec 2
  | .live => 0 | .shadow => 1 | .listen => 2

def DeckState.code : DeckState → BitVec 3
  | .idle => 0 | .priming => 1 | .armed => 2 | .playing => 3 | .fading => 4

def MonState.code : MonState → BitVec 2
  | .suspended => 0 | .sounding => 1 | .silent => 2 | .deadAir => 3

/-- The flags byte of an ASRUN: bit 0 COLD_START to bit 4 YIELDED_MID (13.2). -/
def RecFlags.code (f : RecFlags) : Byte :=
  (0 : BitVec 3) ++ BitVec.ofBool f.yieldedMid ++ BitVec.ofBool f.takenMid ++ BitVec.ofBool f.underrun
    ++ BitVec.ofBool f.lateStart ++ BitVec.ofBool f.coldStart

/-- An optional air time as a 4-byte field: 0xFFFFFFFF when absent. -/
def timeField : Option Nat → BitVec 32
  | none => 0xFFFFFFFF
  | some t => BitVec.ofNat 32 t

/-- A number as a byte. -/
def byteField (n : Nat) : Byte := BitVec.ofNat 8 n

/-- A number as a 2-byte field. -/
def wordField (n : Nat) : BitVec 16 := BitVec.ofNat 16 n

/-! ### Notice kinds and payloads (13.2) -/

/-- The kind code of a notice (13.2). -/
def Notice.kindCode : Notice → BitVec 5
  | .take => 1 | .taken => 2 | .fault _ => 3 | .start _ => 4 | .segue _ => 5 | .finish _ => 6 | .go _ => 7 | .level _ => 8
  | .duck _ => 9 | .clearFaults => 10 | .load _ => 11 | .drop _ => 12 | .clear => 13 | .declareBreak _ => 14
  | .status _ => 15 | .asrun _ => 16

/-- The class of a notice the engine sends, which is its priority (R150). The addressed kinds are never sent by the engine;
they are given the last class. -/
def Notice.cls : Notice → Nat
  | .taken => 0 | .fault _ => 0 | .start _ => 1 | .segue _ => 1 | .finish _ => 1 | .duck _ => 2 | .status _ => 4
  | .asrun _ => 5
  | .take => 5 | .go _ => 5 | .level _ => 5 | .clearFaults => 5 | .load _ => 5 | .drop _ => 5 | .clear => 5
  | .declareBreak _ => 5

/-- The bytes of a break report (13.3). -/
def reportBytes (r : ReportFields) : List Byte := [r.id, r.flags] ++ be32 r.countdown ++ be32 r.gap

/-- The bytes of a STATUS: 14 without a break report, 24 with one (13.3, R203). -/
def statusBytes (f : StatusFields) : List Byte :=
  [f.head, f.partner] ++ be16 f.trim ++ [f.rejected] ++ be16 f.day ++ be16 f.decks
    ++ [f.recordCount, f.logCount, f.lostCount] ++ be16 f.groups
    ++ (match f.report with | none => [] | some r => reportBytes r)

/-- The payload bytes of a notice (13.2, 13.3). -/
def Notice.payload : Notice → List Byte
  | .take => []
  | .taken => []
  | .clearFaults => []
  | .clear => []
  | .fault f => [f.group, f.kind, f.set]
  | .start f => be16 f.tag ++ be16 f.cart ++ [f.group, f.cls, f.breakId] ++ be32 f.start ++ be32 f.segue ++ be32 f.finish
  | .segue f => be16 f.tag ++ [f.group] ++ be32 f.time
  | .finish f => be16 f.tag ++ [f.group, f.outcome] ++ be32 f.time
  | .go g => [g]
  | .level f => [f.group] ++ be16 f.level
  | .duck f => [f.domain] ++ be16 f.depth ++ be16 f.tag
  | .drop t => be16 t
  | .declareBreak f => [f.id, f.group] ++ be32 f.rejoin ++ be16 f.fill
  | .load f => be16 f.tag ++ be16 f.cart ++ [f.kind ++ f.law ++ f.group] ++ be32 f.start ++ be32 f.latest ++ be16 f.fadeIn
      ++ be16 f.fadeOut ++ be16 f.displace ++ be16 f.duck ++ [f.breakId] ++ be16 f.before
  | .status f => statusBytes f
  | .asrun f => [f.sequence] ++ be16 f.tag ++ be16 f.cart ++ [f.group, f.cls, f.outcome, f.reason, f.breakId]
      ++ be32 f.start ++ be32 f.finish ++ be32 f.aired ++ [f.substituted, f.flags]

/-- A 4-byte field from its bytes. -/
def join32 (a b c d : Byte) : BitVec 32 := a ++ b ++ c ++ d

/-- The break report in the last ten bytes of a 24-byte STATUS. -/
def readReport : List Byte → Option ReportFields
  | [i, f, c3, c2, c1, c0, g3, g2, g1, g0] => some ⟨i, f, join32 c3 c2 c1 c0, join32 g3 g2 g1 g0⟩
  | _ => none

/-- A received kind code and payload as a notice: none for a kind code that names no kind, or for a length that
the kind does not allow (R155). -/
def readNotice (kind : Nat) (payload : List Byte) : Option Notice :=
  match kind, payload with
  | 1, [] => some .take
  | 2, [] => some .taken
  | 3, [g, k, s] => some (.fault ⟨g, k, s⟩)
  | 4, [t1, t0, c1, c0, g, k, b, s3, s2, s1, s0, e3, e2, e1, e0, f3, f2, f1, f0] =>
      some (.start ⟨t1 ++ t0, c1 ++ c0, g, k, b, join32 s3 s2 s1 s0, join32 e3 e2 e1 e0, join32 f3 f2 f1 f0⟩)
  | 5, [t1, t0, g, a3, a2, a1, a0] => some (.segue ⟨t1 ++ t0, g, join32 a3 a2 a1 a0⟩)
  | 6, [t1, t0, g, o, a3, a2, a1, a0] => some (.finish ⟨t1 ++ t0, g, o, join32 a3 a2 a1 a0⟩)
  | 7, [g] => some (.go g)
  | 8, [g, l1, l0] => some (.level ⟨g, l1 ++ l0⟩)
  | 9, [m, d1, d0, t1, t0] => some (.duck ⟨m, d1 ++ d0, t1 ++ t0⟩)
  | 10, [] => some .clearFaults
  | 11, [t1, t0, c1, c0, k, s3, s2, s1, s0, l3, l2, l1, l0, i1, i0, o1, o0, p1, p0, d1, d0, b, q1, q0] =>
      some (.load ⟨t1 ++ t0, c1 ++ c0, k.extractLsb' 5 3, k.extractLsb' 3 2, k.extractLsb' 0 3, join32 s3 s2 s1 s0,
        join32 l3 l2 l1 l0, i1 ++ i0, o1 ++ o0, p1 ++ p0, d1 ++ d0, b, q1 ++ q0⟩)
  | 12, [t1, t0] => some (.drop (t1 ++ t0))
  | 13, [] => some .clear
  | 14, [i, g, r3, r2, r1, r0, f1, f0] => some (.declareBreak ⟨i, g, join32 r3 r2 r1 r0, f1 ++ f0⟩)
  | 15, h :: q :: t1 :: t0 :: rj :: y1 :: y0 :: d1 :: d0 :: rc :: lc :: lo :: g1 :: g0 :: rest =>
      match rest with
      | [] => some (.status ⟨h, q, t1 ++ t0, rj, y1 ++ y0, d1 ++ d0, rc, lc, lo, g1 ++ g0, none⟩)
      | _ :: _ => (readReport rest).map fun r =>
          .status ⟨h, q, t1 ++ t0, rj, y1 ++ y0, d1 ++ d0, rc, lc, lo, g1 ++ g0, some r⟩
  | 16, [sq, t1, t0, c1, c0, g, k, o, r, b, s3, s2, s1, s0, f3, f2, f1, f0, a3, a2, a1, a0, u, fl] =>
      some (.asrun ⟨sq, t1 ++ t0, c1 ++ c0, g, k, o, r, b, join32 s3 s2 s1 s0, join32 f3 f2 f1 f0, join32 a3 a2 a1 a0,
        u, fl⟩)
  | _, _ => none

/-! ### The frame on the line (R141, R143) -/

/-- Fill bits: after six equal bits one bit of the opposite value, which begins a new run (R141). `run` bits equal to
`last` have just been sent. -/
def stuffFrom (last : BusBit) (run : Nat) : List BusBit → List BusBit
  | [] => []
  | b :: bs =>
    let r := if b = last then run + 1 else 1
    if r = 6 then b :: (!b) :: stuffFrom (!b) 1 bs else b :: stuffFrom b r bs

/-- The next bit on the line; after the bits given the line is recessive. -/
def nextBit : List BusBit → BusBit × List BusBit
  | [] => (true, [])
  | b :: bs => (b, bs)

/-- `n` bits read with their fill bits removed (R141): none at a form error, seven equal bits. Gives the bits, the run
that stands, and the rest of the line. -/
def unstuffFrom (last : BusBit) (run : Nat) : Nat → List BusBit → Option (List BusBit × BusBit × Nat × List BusBit)
  | 0, bs => some ([], last, run, bs)
  | n + 1, bs =>
    let (b, bs1) := nextBit bs
    let r := if b = last then run + 1 else 1
    if r = 6 then
      let (x, bs2) := nextBit bs1
      if x = b then none else (unstuffFrom x 1 n bs2).map fun (out, t) => (b :: out, t)
    else (unstuffFrom b r n bs1).map fun (out, t) => (b :: out, t)

/-- A frame's fields as received (R143). -/
structure Frame where
  header  : Header
  kind    : BitVec 5
  payload : List Byte
  deriving DecidableEq, Repr

/-- The bits of a frame from the start bit through the last payload bit, without fill bits (R143). -/
def Frame.content (f : Frame) : List BusBit :=
  [false] ++ bitsOf f.header.priority ++ bitsOf f.header.sender ++ bitsOf f.kind ++ bitsOf f.header.target
    ++ bitsOf (BitVec.ofNat 5 f.payload.length) ++ bytesToBits f.payload

/-- A frame as the line carries it: the filled span with its fill bits, then seven recessive end bits (R143). -/
def Frame.bits (f : Frame) : List BusBit :=
  stuffFrom false 0 (f.content ++ bitsOf (crc16 f.content)) ++ List.replicate 7 true

/-- The frame in which the engine sends a notice: target 31, priority its class (R143). -/
def Notice.frame (n : Notice) (own : Station) : Frame :=
  { header := ⟨BitVec.ofNat 3 n.cls, BitVec.ofNat 4 own.val, 31⟩, kind := n.kindCode, payload := n.payload }

/-- What a receiver makes of a frame (R153): discarded by the form, length, CRC or end check, or well formed. -/
inductive FrameRead where
  | formError | lengthError | crcError | endError
  | wellFormed (f : Frame)
  deriving DecidableEq, Repr

/-- Reading a frame from its start bit, with the checks of R153 in their order. -/
def readFrame (bits : List BusBit) : FrameRead :=
  match unstuffFrom false 0 23 bits with
  | none => .formError
  | some (hd, last, run, rest) =>
    if hd.take 1 = [true] then .formError
    else
      let len := bitsToNat (hd.drop 18)
      if len > 24 then .lengthError
      else match unstuffFrom last run (8 * len + 16) rest with
        | none => .formError
        | some (body, _, _, tail) =>
          if bitsOf (crc16 (hd ++ body.take (8 * len))) ≠ body.drop (8 * len) then .crcError
          else if (tail.take 7).all (· = true) then
            .wellFormed
              { header := ⟨BitVec.ofNat 3 (bitsToNat ((hd.drop 1).take 3)), BitVec.ofNat 4 (bitsToNat ((hd.drop 4).take 4)),
                  BitVec.ofNat 5 (bitsToNat ((hd.drop 13).take 5))⟩
                kind := BitVec.ofNat 5 (bitsToNat ((hd.drop 8).take 5))
                payload := bitsToBytes len body }
          else .endError

/-! ### The cart store (13.1, R16 to R20) -/

/-- The unit that holds a cart's directory entry (R16). -/
def directoryUnit (cart : Nat) : Nat := cart / 128

/-- A directory entry: the header's unit address, 0 for no cart (R16). -/
def directoryEntry (cart : Nat) (unit : List Byte) : Nat := readBE unit (4 * (cart % 128)) 4

/-- Units per block of a format (R16). -/
def unitsPerBlock : Nat → Nat
  | 0 => 8 | 1 => 12 | 2 => 4 | _ => 6

/-- The unit at which block `k` begins, modulo 2^32 (R16). -/
def blockUnit (first format k : Nat) : Nat := (first + k * unitsPerBlock format) % 4294967296

/-- A class code, PAD when it is none of the five (R19). -/
def classOfCode : Nat → CartClass
  | 1 => .song | 2 => .jingle | 3 => .advert | 4 => .liner | _ => .pad

/-- An optional 4-byte field. -/
def optional32 (n : Nat) : Option Nat := if n = 0xFFFFFFFF then none else some n

/-- The snapshot of a header that passed its checks, with the corrections of R19 in the order written, and R20. -/
def makeSnapshot (h : List Byte) : Snapshot :=
  let trim := clampInt (-240) 120 (signed16 (readBE h 22 2))
  let length := min (readBE h 8 4) 134217727
  let cls := classOfCode (readBE h 6 1)
  let fadeLen := msToSamples (readBE h 20 2)
  let mark := (optional32 (readBE h 16 4)).filter (fun m => decide (m ≤ length))
  let fadeLen := match mark with
    | some m => if m + fadeLen > length then length - m else fadeLen
    | none => fadeLen
  let mark := mark.filter (fun m => !(m == 0 && fadeLen == 0))
  let elen := match mark with
    | some m => m + fadeLen
    | none => length
  let segue := match optional32 (readBE h 12 4) with
    | some s => min s elen
    | none => elen
  { cls := cls, format := readBE h 7 1, length := length, elen := elen, segue := segue, fadeMark := mark, fadeLen := fadeLen,
    trim := trim, firstBlock := readBE h 24 4, blocks := ceilDiv elen 1024 }

/-- The header checks of R18: marker, CRC, format, length, cart number. -/
def headerPasses (cart : Nat) (h : List Byte) : Bool :=
  h.take 4 = [0x4B, 0x43, 0x52, 0x54] && (crc16 (bytesToBits (h.take 62))).toNat == readBE h 62 2
    && decide (readBE h 7 1 ≤ 3) && decide (readBE h 8 4 ≠ 0) && readBE h 4 2 == cart

/-- The outcome of a GOOD header read (R18, R25). -/
def readHeader (cart : Nat) (unit : List Byte) : FetchOutcome :=
  if headerPasses cart (unit.take 64) then .snapshot (makeSnapshot (unit.take 64)) else .failed .header

/-- A 16-bit sample enters the mix times 256, a 24-bit sample as its value (R17). -/
def sampleValue (bytesPerSample : Nat) (n : Nat) : Int :=
  if bytesPerSample = 2 then signed16 n * 256 else if n < 8388608 then n else (n : Int) - 16777216

/-- Frame `i` of a block in a format: stereo in 0 and 1, mono to both channels in 2 and 3; 2-byte samples in 0 and 2,
3-byte samples in 1 and 3 (R17). -/
def blockFrame (format : Nat) (audio : List Byte) (i : Nat) : StereoFrame :=
  let b := if format % 2 = 0 then 2 else 3
  if format < 2 then
    ⟨sampleValue b (readBE audio (2 * b * i) b), sampleValue b (readBE audio (2 * b * i + b) b)⟩
  else
    let x := sampleValue b (readBE audio (b * i) b)
    ⟨x, x⟩

/-! ### The configuration record (13.4, R198, R199) -/

/-- A level from its signed 2-byte field: OFF at −32,768, else within −900 to 0 (R86, R199). -/
def levelOfField (n : Nat) : Level :=
  if n = 32768 then .off else .tenths (clampInt (-900) 0 (signed16 n))

/-- The defaults of R198. -/
def defaultConfig : ConfigRecord := {}

/-- The marker of the configuration record, "KC24" (13.4). -/
def configMarkerGood (d : List Byte) : Bool := d.take 4 = [0x4B, 0x43, 0x32, 0x34]

/-- The eight steps from an offset, each within 1 to 30 (R199). -/
def readSteps (d : List Byte) (off : Nat) : Vector Nat 8 :=
  let st := fun k => max 1 (min 30 (readBE d (off + k) 1))
  ⟨#[st 0, st 1, st 2, st 3, st 4, st 5, st 6, st 7], rfl⟩

/-- The fields of a record with a right marker, brought into range by R199. `own` is the own station. -/
def readConfig (own : Station) (d : List Byte) : ConfigRecord :=
  let code := readBE d 4 1
  let partner := readBE d 5 1
  let paired : Bool := (code == 1 || code == 2) && decide (partner < 16) && partner != own.val
  let mask := BitVec.ofNat 16 (readBE d 6 2)
  { setting := if paired then (if code = 1 then .main else .standby) else .solo
    partner := if paired then some (Fin.ofNat 16 partner) else none
    mask := if mask = 0 then 0xFFFF else mask
    domains := ⟨#[min 8 (readBE d 8 1), min 8 (readBE d 9 1), min 8 (readBE d 10 1)], rfl⟩
    attack := readSteps d 11
    release := readSteps d 19
    master := levelOfField (readBE d 27 2)
    startLevels := ⟨#[levelOfField (readBE d 29 2), levelOfField (readBE d 31 2), levelOfField (readBE d 33 2),
      levelOfField (readBE d 35 2)], rfl⟩
    threshold := min 8388607 (readBE d 37 3)
    deadAir := max 2 (min 30 (readBE d 40 1))
    skipSilent := min 10 (readBE d 41 1) }

end Sys2Proof.Machine
end

