-- ==== Sys2Proof/Machine/Ops.lean ====
section
/-! DEFINITION. The named operations over the state that every block uses: reading and changing records, decks and entries,
expiries, reactions, the as-run log and the transmit queue. -/

namespace Sys2Proof.Machine

/-! ### Reading the state -/

def State.now (s : State) : Nat := s.clock.airTime

def State.isLive (s : State) : Bool := s.pair.role == .live

/-- The LIVE line (R112): asserted in every sample period in which the role state is LIVE. -/
def State.liveLine (s : State) : Bool := s.phase == .running && s.isLive

/-- The engine's partner (chapter 10). -/
def State.partner (s : State) : Option Station := s.cfg.partner

/-- The error flag: 8 dominant bits, of value 0 (R141, R146). -/
def errorFlag : List BusBit := List.replicate 8 false

/-- The bits the engine drives: its frame while its notice is in flight (R143), the error flag while FLAGGING (R146), none while
it sends nothing. -/
def State.sentBits (s : State) : Option (List BusBit) :=
  match s.bus.line with
  | .flagging => some errorFlag
  | .waitIdle => none
  | .idle => none
  | .receiving => none
  | .sending =>
    match s.bus.flight with
    | none => none
    | some o => (s.bus.queue.find? (fun q => q.order == o)).map fun q => (q.notice.frame s.ownStation).bits

def State.deck (s : State) (d : DeckNo) : Deck := s.decks[d]

def State.entry (s : State) (e : EntryNo) : BreakEntry := s.breaks.entries[e]

def State.peer (s : State) (q : Station) : Peer := s.peers.entries[q]

/-- The decks in increasing number. -/
def allDecks : List DeckNo := [0, 1, 2, 3]

/-- The break entries in increasing number. -/
def allEntries : List EntryNo := [0, 1, 2, 3, 4, 5, 6, 7]

/-- The stations in increasing number. -/
def allStations : List Station := [0, 1, 2, 3, 4, 5, 6, 7, 8, 9, 10, 11, 12, 13, 14, 15]

/-- The air groups in the order A, B, C. -/
def allAir : List (Fin 3) := [0, 1, 2]

/-- The air group of a group, none for the audition output. -/
def airOf (g : Group) : Option (Fin 3) :=
  match g with
  | 0 => none
  | 1 => some 0
  | 2 => some 1
  | 3 => some 2

/-- The group number of an air group. -/
def groupOfAir (a : Fin 3) : Nat := a.val + 1

def RecState.unstarted : RecState → Bool
  | .headerWait => true | .queued => true | .bound => true | .armed => true
  | .onAir => false | .clearing => false

/-- A record in HEADER_WAIT, QUEUED, BOUND or ARMED (3.3). -/
def CueRecord.unstarted (r : CueRecord) : Bool := r.state.unstarted

/-- A record in ON_AIR or CLEARING (3.3). -/
def CueRecord.sounding (r : CueRecord) : Bool := !r.state.unstarted

def DeckState.sounding : DeckState → Bool
  | .playing => true | .fading => true
  | .idle => false | .priming => false | .armed => false

/-- A deck that is PLAYING or FADING. -/
def Deck.sounding (d : Deck) : Bool := d.state.sounding

/-- A slot that is not FREE (R61). -/
def Slot.occupied : Slot → Bool
  | .free => false | .inFlight _ => true | .filled _ _ => true

def Slot.isFilled : Slot → Bool
  | .free => false | .inFlight _ => false | .filled _ _ => true

def Slot.isInFlight : Slot → Bool
  | .free => false | .inFlight _ => true | .filled _ _ => false

/-- The block number a slot holds (R61). -/
def Slot.block? : Slot → Option Nat
  | .free => none | .inFlight b => some b | .filled b _ => some b

/-- A deck sounds (R7, R11). -/
def State.anySounding (s : State) : Bool := allDecks.any fun d => (s.deck d).sounding

/-- The record with a tag. -/
def State.find (s : State) (tag : Nat) : Option CueRecord := s.records.find? (fun r => r.tag == tag)

/-- The predecessor of the record with a tag: the nearest earlier record on the same group (R34). -/
def State.predecessor (s : State) (tag : Nat) (g : Group) : Option CueRecord :=
  (s.records.takeWhile (fun r => r.tag != tag)).reverse.find? (fun r => r.group == g)

/-- The tag of the record whose predecessor is the record with a tag: the next later record on its group. -/
def State.follower (s : State) (tag : Nat) (g : Group) : Option Nat :=
  (((s.records.dropWhile (fun r => r.tag != tag)).drop 1).find? (fun r => r.group == g)).map (·.tag)

/-- A record is sounding and has reached its segue mark, as its deck judges it (R48). -/
def State.hasSegued (s : State) (r : CueRecord) : Bool :=
  r.sounding && (match r.deck with | some d => (s.deck d).segued | none => false)

/-- The duck domain of a group, 0 for none (R98). -/
def State.domain (s : State) (g : Group) : Nat :=
  match airOf g with
  | none => 0
  | some a => s.cfg.domains[a]

/-! ### Changing one part -/

def State.setDeck (s : State) (d : DeckNo) (x : Deck) : State := { s with decks := s.decks.set d x }

def State.modDeck (s : State) (d : DeckNo) (f : Deck → Deck) : State := s.setDeck d (f (s.deck d))

def State.modRecord (s : State) (tag : Nat) (f : CueRecord → CueRecord) : State :=
  { s with records := s.records.map fun r => if r.tag = tag then f r else r }

def State.setEntry (s : State) (e : EntryNo) (x : BreakEntry) : State :=
  { s with breaks := { s.breaks with entries := s.breaks.entries.set e x } }

def State.modEntry (s : State) (e : EntryNo) (f : BreakEntry → BreakEntry) : State := s.setEntry e (f (s.entry e))

def State.modPeer (s : State) (q : Station) (f : Peer → Peer) : State :=
  { s with peers := { s.peers with entries := s.peers.entries.set q (f (s.peer q)) } }

def State.modReader (s : State) (f : StoreReader → StoreReader) : State := { s with reader := f s.reader }

def State.modBus (s : State) (f : CueBus → CueBus) : State := { s with bus := f s.bus }

def State.setTimer (s : State) (d : DeckNo) (n : Nat) : State :=
  { s with monitor := { s.monitor with timers := s.monitor.timers.set d n } }

/-- Reactions asked for by a rule, carried out after those already asked for. -/
def State.emit (s : State) (ts : List Task) : State := { s with work := s.work ++ ts }

/-- The record that an air-time expiry belongs to; none for those of the break fitter (1.5). -/
def AirHandle.record? : AirHandle → Option Nat
  | .startTime t => some t
  | .latestStart t => some t
  | .scheduledStart t => some t
  | .rejoin _ => none
  | .fillFade _ => none
  | .idHold _ => none

/-- The record that a reaction names (R58). -/
def Task.record? : Task → Option Nat
  | .fired h _ => h.record?
  | .trigger t => some t
  | .answer t => some t
  | .start t _ _ _ => some t
  | .armed t => some t
  | .judgeNew t => some t
  | .rejudge t => some t
  | .followSegue t => some t
  | .followEnd t => some t
  | .seguePast t => some t
  | .joined t => some t
  | .memberStarted t => some t
  | .memberReady t => some t
  | .peerTrigger t => some t
  | .partnerStart t _ => some t
  | .partnerEnd t => some t
  | .fireDue => none
  | .bind => none
  | .memberLeft _ _ _ => none
  | .deckIdle _ => none
  | .lookForMembers _ => none
  | .fit _ => none
  | .fetchEnded _ _ => none
  | .storeEnd _ => none
  | .fadeMark _ => none
  | .truncBegin _ => none
  | .segueMark _ => none
  | .itemEnd _ => none
  | .peerStart _ _ _ => none
  | .peerMark _ _ => none
  | .grant => none
  | .boundary => none

/-- The reactions that name a record which leaves are discarded, so that none reaches a later record with its tag (R58). -/
def State.forget (s : State) (tag : Nat) : State := { s with work := s.work.filter fun t => t.record? != some tag }

/-- Slots of a ring changed one by one. -/
def mapRing (f : Slot → Slot) (r : Vector Slot 16) : Vector Slot 16 := ⟨(r.toList.map f).toArray, by simp⟩

/-! ### Expiries (R13, R14) -/

/-- Cancels an air-time expiry; nothing when there is none (R13). -/
def State.cancelAir (s : State) (h : AirHandle) : State :=
  { s with airExpiries := s.airExpiries.filter fun x => x.handle != h }

/-- Cancels an interval expiry; nothing when there is none (R14). -/
def State.cancelInterval (s : State) (h : IntervalHandle) : State :=
  { s with intervals := s.intervals.filter fun x => x.handle != h }

/-- Sets or moves an air-time expiry; one whose target is due fires at once with its lateness (R13). Whether a moved expiry keeps
its place among those of one target the manual does not say: here a move renews it (assumption 24). -/
def State.setAir (s : State) (h : AirHandle) (target : Nat) : State :=
  let s := s.cancelAir h
  if isDue target s.now then s.emit [.fired h (lateness target s.now)]
  else { s with airExpiries := s.airExpiries ++ [⟨h, target⟩] }

/-- Sets or moves an interval expiry of a number of sample periods from the present one (R14). -/
def State.setInterval (s : State) (h : IntervalHandle) (length : Nat) : State :=
  let s := s.cancelInterval h
  { s with intervals := s.intervals ++ [⟨h, s.period + length⟩] }

/-- The Timebase holds this interval expiry. -/
def State.hasInterval (s : State) (h : IntervalHandle) : Bool := s.intervals.any fun x => x.handle == h

/-- This interval expiry falls due in the present sample period (R14). -/
def State.intervalDue (s : State) (h : IntervalHandle) : Bool :=
  s.intervals.any fun x => x.handle == h && decide (x.deadline ≤ s.period)

/-- Inserts an expiry after those of the same or a smaller lateness (R13). -/
def insertByLateness (now : Nat) (x : AirExpiry) : List AirExpiry → List AirExpiry
  | [] => [x]
  | y :: ys => if lateness x.target now < lateness y.target now then x :: y :: ys else y :: insertByLateness now x ys

/-- The air-time expiries that test due, in R13's order: increasing lateness, those of one target in the order set. -/
def State.dueAir (s : State) : List AirExpiry :=
  (s.airExpiries.filter fun x => isDue x.target s.now).foldl (fun l x => insertByLateness s.now x l) []

/-- An air-time expiry fires: the Timebase removes it and its owner receives it (R13). -/
def State.fireAir (s : State) (x : AirExpiry) : State :=
  (s.cancelAir x.handle).emit [.fired x.handle (lateness x.target s.now)]

/-! ### Transmit queue (8.4) -/

/-- A notice in queue order: after every notice of its own and of lower-numbered classes (R150). -/
def insertQueued (q : Queued) : List Queued → List Queued
  | [] => [q]
  | x :: xs => if q.notice.cls < x.notice.cls then q :: x :: xs else x :: insertQueued q xs

/-- A handed notice joins the queue with error count 0 (R150). -/
def CueBus.join (b : CueBus) (n : Notice) : CueBus :=
  { b with queue := insertQueued ⟨n, b.handed, 0⟩ b.queue, handed := b.handed + 1 }

/-- A queued notice is in flight. -/
def CueBus.inFlight (b : CueBus) (q : Queued) : Bool := b.flight == some q.order

/-- The candidate for eviction: of the queued notices not in flight, the newest of the highest-numbered class, which stands
last in queue order (R152). -/
def CueBus.lowest (b : CueBus) : Option Queued := (b.queue.filter fun q => !b.inFlight q).getLast?

def Notice.isStatus : Notice → Bool
  | .status _ => true
  | _ => false

def Notice.isAsrun : Notice → Bool
  | .asrun _ => true
  | _ => false

/-- A notice handed to the queue, with R152 when it holds 8. The second part is whether an ASRUN was evicted, of which the
log is told (R195). -/
def CueBus.handPlain (b : CueBus) (n : Notice) : CueBus × Bool :=
  if b.queue.length < 8 then (b.join n, false)
  else match b.lowest with
    | none => ({ b with txDiscard := true }, false)
    | some q =>
      if n.cls < q.notice.cls then
        let b := { b with queue := b.queue.filter fun x => x.order != q.order }
        if q.notice.isAsrun then (b.join n, true) else ({ b.join n with txDiscard := true }, false)
      else ({ b with txDiscard := true }, false)

/-- The content of a queued STATUS replaced in its place (R151). -/
def replaceStatus (f : StatusFields) (q : List Queued) : List Queued :=
  q.map fun x => if x.notice.isStatus then { x with notice := .status f } else x

/-- A STATUS handed: joins, replaces a queued STATUS, or is held while the queued one is in flight (R151). -/
def CueBus.handStatus (b : CueBus) (f : StatusFields) : CueBus × Bool :=
  match b.queue.find? (·.notice.isStatus) with
  | none => b.handPlain (.status f)
  | some q =>
    if b.inFlight q then ({ b with held := some f }, false)
    else ({ b with queue := replaceStatus f b.queue }, false)

/-! ### As-run log (chapter 11) -/

/-- The ASRUN payload of a stored record (13.2). -/
def asRunFields (r : AsRun) : AsRunFields :=
  { sequence := byteField r.sequence, tag := wordField r.tag, cart := wordField r.cart, group := byteField r.group
    cls := byteField (match r.cls with | none => 0 | some c => c.code), outcome := byteField r.outcome.code
    reason := byteField r.reason.code, breakId := byteField (r.breakId.getD 0), start := timeField r.start
    finish := timeField r.finish, aired := BitVec.ofNat 32 r.aired, substituted := byteField r.substituted
    flags := r.flags.code }

/-- The offer judgement: the oldest record is offered while the log is not empty, the offer state is IDLE and the queue
holds fewer than 4 notices (R192). -/
def State.judgeOffer (s : State) : State :=
  match s.log.records, s.log.offer with
  | r :: _, none =>
    if s.bus.queue.length < 4 then
      { s with bus := s.bus.join (.asrun (asRunFields r)), log := { s.log with offer := some r.sequence } }
    else s
  | _, _ => s

/-- The log is told that the offered ASRUN has been dropped or evicted (R195); the offer judgement follows. -/
def State.unoffer (s : State) : State := State.judgeOffer { s with log := { s.log with offer := none } }

/-- A producer hands a notice to the transmit queue (R150 to R152, R195). -/
def State.hand (s : State) (n : Notice) : State :=
  match (match n with | .status f => s.bus.handStatus f | _ => s.bus.handPlain n) with
  | (b, evictedAsrun) =>
    if evictedAsrun then State.unoffer { s with bus := b } else { s with bus := b }

/-- The log takes an offered as-run record, or counts it lost; the offer judgement follows (R191). -/
def State.storeAsRun (s : State) (r : AsRun) : State :=
  State.judgeOffer
    (if s.log.records.length < 32 then
      { s with log := { s.log with
          records := s.log.records ++ [{ r with sequence := s.log.nextSeq }], nextSeq := (s.log.nextSeq + 1) % 256 } }
    else { s with log := { s.log with lost := min 255 (s.log.lost + 1) } })

/-- Hands a notice only while the role state is LIVE (R65, R72, R80, R103, R119). -/
def State.handLive (s : State) (n : Notice) : State := if s.isLive then s.hand n else s

end Sys2Proof.Machine
end

