-- ==== Sys2Proof/Machine/Operands.lean ====
section
/-! DEFINITION. The operands of the commands read by their encodings (R202, 13.2): what a received field means before the rule
that owns the notice judges it. -/

namespace Sys2Proof.Machine

/-- The sending station of a frame. -/
def senderOf (h : Header) : Station := h.sender.toFin

/-- A time field of START, SEGUE or END: absent for 0xFFFFFFFF and for any value from Dlen upward (R202). -/
def readTime (t : BitVec 32) : Option Nat := if t.toNat < dayLength then some t.toNat else none

/-- A time field of LOAD: absent for 0xFFFFFFFF, otherwise as received (R202). -/
def readLoadTime (t : BitVec 32) : Option Nat := optional32 t.toNat

/-- A byte or word field for which 0 means absent. -/
def readNonzero (n : Nat) : Option Nat := if n = 0 then none else some n

/-- The start kind of a LOAD; 6 and 7 are not defined (13.2). -/
def readStartKind (k : BitVec 3) : Option StartKind :=
  match k.toNat with
  | 0 => some .hardAt | 1 => some .softAt | 2 => some .afterPrev | 3 => some .followPrev | 4 => some .afterPeer
  | 5 => some .go | _ => none

/-- The fade law of a LOAD; 2 and 3 are not defined (13.2). -/
def readLaw (l : BitVec 2) : Option Law :=
  match l.toNat with
  | 0 => some .linear | 1 => some .log | _ => none

/-- A group field from 0 to 3. -/
def readGroup (n : Nat) : Option Group := if h : n < 4 then some ⟨n, h⟩ else none

/-- The peer station byte of an AFTER_PEER LOAD, the first of its start time field (13.2). -/
def loadPeerStation (f : LoadFields) : Nat := (f.start.extractLsb' 24 8).toNat

/-- The peer tag of an AFTER_PEER LOAD, the second and third bytes of its start time field (13.2). -/
def loadPeerTag (f : LoadFields) : Nat := (f.start.extractLsb' 8 16).toNat

/-- The fade-out override of a LOAD in samples: absent for 0xFFFF, else clamped to 10,000 ms (R37). -/
def readOverride (ms : BitVec 16) : Option Nat := if ms.toNat = 0xFFFF then none else some (msToSamples ms.toNat)

/-- The level of a LEVEL notice (R86). -/
def readLevel (l : BitVec 16) : Level := levelOfField l.toNat

/-- The clock state bits 7 and 6 of a STATUS (13.3). -/
def statusClock (f : StatusFields) : ClockState :=
  match (f.head.extractLsb' 6 2).toNat with
  | 0 => .free | 1 => .acquire | 2 => .locked | _ => .holdover

/-- The role state bits 5 and 4 of a STATUS; code 3 is read as NONE (R202). -/
def statusRole (f : StatusFields) : Option RoleState :=
  match (f.head.extractLsb' 4 2).toNat with
  | 0 => some .live | 1 => some .shadow | 2 => some .listen | _ => none

/-- The partner byte of a STATUS; above 15 it is read as none (R202). -/
def statusPartner (f : StatusFields) : Option Station := if h : f.partner.toNat < 16 then some ⟨f.partner.toNat, h⟩ else none

/-- The monitor state of an air group in a STATUS is DEAD_AIR (13.3). -/
def statusDeadAir (f : StatusFields) (a : Fin 3) : Bool := f.groups.extractLsb' (14 - 4 * a.val) 2 == 3

/-- The latched OVERLOAD flag of an air group in a STATUS (13.3). -/
def statusOverload (f : StatusFields) (a : Fin 3) : Bool := f.groups.getLsbD (12 - 4 * a.val)

/-- Some deck's STORE flag is set in a STATUS (13.3). -/
def statusStore (f : StatusFields) : Bool := f.decks.extractLsb' 0 4 != 0

end Sys2Proof.Machine
end

