-- ==== Sys2Proof/Machine/Flags.lean ====
section
/-! DEFINITION. The flags: bus flags (R158), latched monitor and STORE flags (R120, R122), and the words of STATUS that
carry them (13.3). -/

namespace Sys2Proof.Machine

/-- CLEAR_FAULTS at the cue bus controller: all four bus flags are cleared (R158). -/
def State.clearBusFlags (s : State) : State :=
  s.modBus fun b => { b with foreign := false, busError := false, txDiscard := false, duplicate := false }

/-- A monitor changed in each air group. -/
def State.modGroups (s : State) (f : GroupMonitor → GroupMonitor) : State :=
  let g := s.monitor.groups
  { s with monitor := { s.monitor with groups := ⟨#[f g[0], f g[1], f g[2]], rfl⟩ } }

/-- The STORE flags of all four decks are cleared (R59). -/
def State.clearStoreFlags (s : State) : State :=
  allDecks.foldl (fun s d => s.modDeck d fun x => { x with storeFlag := false }) s

/-- CLEAR_FAULTS at the output monitor: latched DEAD_AIR, OVERLOAD and STORE flags are cleared, nothing else (R120). -/
def State.clearLatched (s : State) : State :=
  (s.modGroups fun g => { g with deadAirFlag := false, overloadFlag := false }).clearStoreFlags

/-- The deck states and STORE flags word of STATUS: deck 0 in bits 15 to 13 and bit 3 (13.3). -/
def State.deckWord (s : State) : BitVec 16 :=
  (s.deck 0).state.code ++ (s.deck 1).state.code ++ (s.deck 2).state.code ++ (s.deck 3).state.code
    ++ BitVec.ofBool (s.deck 0).storeFlag ++ BitVec.ofBool (s.deck 1).storeFlag ++ BitVec.ofBool (s.deck 2).storeFlag
    ++ BitVec.ofBool (s.deck 3).storeFlag

/-- The four bits of an air group in STATUS (13.3). -/
def GroupMonitor.word (g : GroupMonitor) : BitVec 4 :=
  g.state.code ++ BitVec.ofBool g.deadAirFlag ++ BitVec.ofBool g.overloadFlag

/-- The group flags and bus flags word of STATUS: group A in bits 15 to 12, FOREIGN in bit 3 (13.3). -/
def State.groupWord (s : State) : BitVec 16 :=
  s.monitor.groups[0].word ++ s.monitor.groups[1].word ++ s.monitor.groups[2].word
    ++ BitVec.ofBool s.bus.foreign ++ BitVec.ofBool s.bus.busError ++ BitVec.ofBool s.bus.txDiscard
    ++ BitVec.ofBool s.bus.duplicate

/-- The first byte of STATUS (13.3). -/
def State.statusHead (s : State) : Byte :=
  s.clock.state.code ++ s.pair.role.code ++ BitVec.ofBool s.clock.offset ++ BitVec.ofBool s.configDefault
    ++ BitVec.ofBool s.breaks.full ++ (0 : BitVec 1)

end Sys2Proof.Machine
end

