-- ==== Sys2Proof/Machine/Store.lean ====
section
/-! DEFINITION. The store reader (chapter 2): header fetches, requests and the arbiter, the read in flight. -/

namespace Sys2Proof.Machine

/-! ### The header-fetch queue (R23, R24) -/

/-- The fetch of a break entry, for the fill cart it now wants. -/
def State.fillFetch (s : State) (e : EntryNo) : Fetch := ⟨.fill e, (s.entry e).fillCart.getD 0⟩

/-- A fetch has left the queue: the break entry waiting for room longest joins at the tail (R24). -/
def State.makeRoom (s : State) : State :=
  match s.reader.waiting with
  | [] => s
  | (e, _) :: rest =>
    if s.reader.queue.length < 48 then
      s.modReader fun r => { r with queue := r.queue ++ [s.fillFetch e], waiting := rest }
    else s

def Fetch.isFill (f : Fetch) : Bool := match f.owner with | .fill _ => true | .record _ => false

/-- The newest waiting break-entry fetch of the queue. -/
def newestFill (q : List Fetch) : Option EntryNo :=
  q.reverse.findSome? fun f => match f.owner with | .fill e => some e | .record _ => none

/-- A record's fetch joins; it always finds room (R24). -/
def State.askRecordFetch (s : State) (tag cart : Nat) : State :=
  if s.reader.queue.length < 48 then s.modReader fun r => { r with queue := r.queue ++ [⟨.record tag, cart⟩] }
  else match newestFill s.reader.queue with
    | none => s.modReader fun r => { r with queue := r.queue ++ [⟨.record tag, cart⟩] }
    | some e => s.modReader fun r =>
        { r with queue := r.queue.filter (fun f => f.owner != .fill e) ++ [⟨.record tag, cart⟩]
                 waiting := r.waiting ++ [(e, s.now)] }

/-- A break entry's fetch is asked for: it joins, or waits for room (R24, R126). -/
def State.askFillFetch (s : State) (e : EntryNo) : State :=
  if s.reader.queue.length < 48 then s.modReader fun r => { r with queue := r.queue ++ [s.fillFetch e] }
  else s.modReader fun r => { r with waiting := r.waiting ++ [(e, s.now)] }

/-- The read in flight is of a header fetch. -/
def StoreRead.ofFetch (r : StoreRead) : Bool :=
  match r.purpose with
  | .directory => true | .header => true | .block _ _ _ => false

/-- The read in flight is a block read for a deck. -/
def StoreRead.ofDeck (r : StoreRead) (d : DeckNo) : Bool :=
  match r.purpose with
  | .directory => false | .header => false | .block e _ _ => e == d

/-- The read in flight of the fetch in progress is abandoned (R31). -/
def StoreReader.abandonFetchRead (r : StoreReader) : StoreReader :=
  { r with flight := r.flight.map fun x => if x.ofFetch then { x with abandoned := true } else x }

/-- A block read in flight for a deck is abandoned (R31). -/
def State.abandonDeckRead (s : State) (d : DeckNo) : State :=
  s.modReader fun r => { r with flight := r.flight.map fun x => if x.ofDeck d then { x with abandoned := true } else x }

/-- A fetch's owner goes away: its waiting fetch is removed and the fetches behind move up, its fetch in progress becomes
absent and a read of it in flight is abandoned, and an entry waiting for room stops waiting (R23, R24, R26, R31). -/
def State.withdrawFetch (s : State) (o : Owner) : State :=
  let s := if s.reader.fetch.any (fun f => f.owner == o) then
      s.modReader fun r => { r.abandonFetchRead with fetch := none } else s
  let s := s.modReader fun r => { r with waiting := r.waiting.filter fun w => Owner.fill w.1 != o }
  if s.reader.queue.any (fun f => f.owner == o) then
    State.makeRoom (s.modReader fun r => { r with queue := r.queue.filter fun f => f.owner != o })
  else s

/-- CLEAR at the store reader (R32). Block reads are abandoned by the decks' release (R63). -/
def State.clearReader (s : State) : State :=
  s.modReader fun r =>
    { (if r.fetch.isSome then r.abandonFetchRead else r) with queue := [], waiting := [], fetch := none }

/-! ### Requests and the arbiter (R27, R28) -/

/-- FILLED slots ahead of the block holding the play position (R61). -/
def Deck.blocksAhead (x : Deck) : Nat :=
  x.ring.toList.countP fun sl => match sl with
    | .filled b _ => decide (x.p / 1024 < b)
    | .free => false
    | .inFlight _ => false

/-- Slots that are FILLED or IN_FLIGHT (R61). -/
def Deck.occupancy (x : Deck) : Nat := x.ring.toList.countP Slot.occupied

/-- The deck has a block still to fetch (R27). -/
def Deck.wants (x : Deck) : Bool := decide (x.fetchPtr < x.fetchLimit)

/-- The deck stands in URGENT: sounding, fewer than 4 blocks ahead, a block still to fetch (R27). -/
def Deck.urgent (x : Deck) : Bool := x.sounding && decide (x.blocksAhead < 4) && x.wants

/-- The deck stands in FILL: not IDLE, occupancy below 12, a block still to fetch (R27). -/
def Deck.fills (x : Deck) : Bool := x.state != .idle && decide (x.occupancy < 12) && x.wants

/-- The lowest-numbered FREE slot (R61). -/
def Deck.freeSlot (x : Deck) : Option (Fin 16) :=
  ([0, 1, 2, 3, 4, 5, 6, 7, 8, 9, 10, 11, 12, 13, 14, 15] : List (Fin 16)).find? fun i => !(x.ring[i]).occupied

/-- The decks in the arbiter's order: from its position plus one, wrapping from 3 to 0 (R28). -/
def deckOrder (arbiter : DeckNo) : List DeckNo := [arbiter + 1, arbiter + 2, arbiter + 3, arbiter]

/-- The deck chosen in a class, round robin (R28). -/
def State.chosen (s : State) (stands : Deck → Bool) : Option DeckNo :=
  (deckOrder s.reader.arbiter).find? fun d => stands (s.deck d) && (s.deck d).freeSlot.isSome

/-- A read is issued with the next read number and a timeout of 960 sample periods (R21). -/
def State.issue (s : State) (p : Purpose) (unit units : Nat) (retry : Bool) : State :=
  (s.modReader fun r =>
    { r with flight := some ⟨p, unit, units, r.nextNumber, retry, false⟩, nextNumber := (r.nextNumber + 1) % 256 }).setInterval
    .readTimeout 960

/-- A deck is granted: the block at its fetch pointer is read into its lowest FREE slot (R29, R61). -/
def State.grantDeck (s : State) (d : DeckNo) : State :=
  let x := s.deck d
  match x.freeSlot, x.item with
  | some i, some it =>
    (((s.setDeck d { x with ring := x.ring.set i (.inFlight x.fetchPtr), fetchPtr := x.fetchPtr + 1 }).modReader
      fun r => { r with arbiter := d }).issue (.block d i x.fetchPtr) (blockUnit it.firstBlock it.format x.fetchPtr)
      (unitsPerBlock it.format) false)
  | _, _ => s

/-- A grant in HEADER: the fetch in progress is granted its header read, or the queue head its directory read; a fetch for
cart 0 ends NO_CART without a read and the port stays idle for the next choice (R25, R28). -/
def State.grantHeader (s : State) : State :=
  match s.reader.fetch with
  | some f =>
    match f.header with
    | some u => (s.modReader fun r => { r with fetch := some { f with header := none } }).issue .header u 1 false
    | none => s
  | none =>
    match s.reader.queue with
    | [] => s
    | f :: rest =>
      let fp : FetchInProgress := { owner := f.owner, cart := f.cart }
      let s := State.makeRoom (s.modReader fun r => { r with queue := rest })
      if f.cart = 0 then s.emit [.fetchEnded fp (.failed .noCart), .grant]
      else (s.modReader fun r => { r with fetch := some fp }).issue .directory (directoryUnit f.cart) 1 false

/-- A request stands in HEADER (R27). -/
def StoreReader.headerStands (r : StoreReader) : Bool :=
  match r.fetch with
  | some f => f.header.isSome
  | none => !r.queue.isEmpty

/-- The grant: while the port is idle the first class in the order URGENT, HEADER, FILL that holds a request is served
(R27, R28). -/
def State.grant (s : State) : State :=
  if s.reader.flight.isSome then s
  else match s.chosen Deck.urgent with
    | some d => s.grantDeck d
    | none =>
      if s.reader.headerStands then s.grantHeader
      else match s.chosen Deck.fills with
        | some d => s.grantDeck d
        | none => s

end Sys2Proof.Machine
end

