-- ==== Sys2Proof/Machine/Departure.lean ====
section
/-! DEFINITION. Departure of a record from the running order (R57), with the release of its deck (R63) and its as-run record
(R190). -/

namespace Sys2Proof.Machine

/-- The IDLE values of a deck; the STORE flag survives (R59). -/
def Deck.toIdle (x : Deck) : Deck := { ({} : Deck) with storeFlag := x.storeFlag }

/-- A deck gives up its record: a block read in flight is abandoned, every field returns to its IDLE value, the skip-silent
timer becomes 0 (R63, R80). -/
def State.idleDeck (s : State) (d : DeckNo) : State :=
  ((s.abandonDeckRead d).modDeck d Deck.toIdle).setTimer d 0

/-- A deck whose item has ended, while its end is being reported: its fields return to their IDLE values, and only its state keeps it
from being bound until the report has been taken (R80). -/
def State.closeDeck (s : State) (d : DeckNo) : State :=
  ((s.abandonDeckRead d).modDeck d fun x => { x.toIdle with state := x.state }).setTimer d 0

/-- The deck of a departed record: IDLE at a release; at the end of an item it returns to IDLE when the end has been reported
(R63, R80). -/
def State.freeDeck (s : State) (d : DeckNo) (ended : Bool) : State := if ended then s.closeDeck d else s.idleDeck d

/-- A deck that has reported its item's end enters IDLE (R80 step 4). -/
def State.deckIdleAt (s : State) (d : DeckNo) : State :=
  if (s.deck d).bound.isNone then s.modDeck d fun x => { x with state := .idle } else s

/-- The cause that a departure reports: FADED, CLEARED for a CLEARING record whatever ends it (R56). -/
def CueRecord.finalCause (r : CueRecord) (c : Cause) : Cause :=
  if r.state = .clearing then ⟨.faded, .cleared⟩ else c

/-- The as-run record of a departure (R57, R190). Counts and times are those of a started record only. -/
def State.asRunOf (s : State) (r : CueRecord) (c : Cause) : AsRun :=
  let c := r.finalCause c
  let x : Option Deck := if r.sounding then r.deck.map s.deck else none
  { tag := r.tag, cart := r.cart, group := r.group.val, cls := r.snapshot.map (·.cls), outcome := c.outcome, reason := c.reason
    breakId := r.breakId, start := if r.sounding then r.actualStart else none
    finish := if r.sounding then some s.now else none
    aired := (x.map (·.aired)).getD 0, substituted := (x.map (·.substituted)).getD 0, flags := r.flags }

/-- The tag of a break's fill record. -/
def fillTag (id : Nat) : Nat := 65280 + id

/-- The entry holds its break id (R123). -/
def BreakEntry.holdsId (b : BreakEntry) : Bool :=
  match b.state with
  | .declared => true | .running => true | .ended => b.idHold | .free => false

/-- The entry that holds a break id. -/
def State.entryOf (s : State) (id : Nat) : Option EntryNo :=
  allEntries.find? fun e => (s.entry e).holdsId && (s.entry e).id == id

/-- A fill record leaves: its fill fade expiry is cancelled and the fill status becomes UNPLACED when the fit dropped it,
SPENT otherwise (R136). R136 does not say what the entry's fill fade then holds: that it becomes absent is the model's choice
(assumption 52). -/
def State.fillLeft (s : State) (r : CueRecord) (byFit : Bool) : State :=
  match r.breakId with
  | none => s
  | some id =>
    if r.tag = fillTag id then
      match s.entryOf id with
      | none => s
      | some e => (s.cancelAir (.fillFade e)).modEntry e fun b =>
          { b with fillFade := none, fillStatus := if byFit then .unplaced else .spent }
    else s

/-- The pending expiries of a record are cancelled (R45, R57). -/
def State.cancelRecordExpiries (s : State) (tag : Nat) : State :=
  ((s.cancelAir (.startTime tag)).cancelAir (.latestStart tag)).cancelAir (.scheduledStart tag)

/-- Steps 1 and 2 of R57: the as-run record is offered, the record leaves the list with its expiries, its fetch and every reaction that
names it (R58), and the deck it has is given up. -/
def State.removeRecord (s : State) (tag : Nat) (c : Cause) (byFit : Bool) : State :=
  match s.find tag with
  | none => s
  | some r =>
    let s := s.storeAsRun (s.asRunOf r c)
    let s := ({ s with records := s.records.filter fun x => x.tag != tag } : State).forget tag
    let s := ((s.cancelRecordExpiries tag).withdrawFetch (.record tag)).fillLeft r byFit
    match r.deck with
    | none => s
    | some d => s.freeDeck d r.sounding

/-- Step 3 of R57, when the record carries a break id. -/
def leftTasks (r : CueRecord) : List Task :=
  match r.breakId with
  | none => []
  | some id => [.memberLeft id r.group (r.tag == fillTag id)]

/-- Step 4 of R57: the follower is judged as a trigger if the record had started, by R50 if not. -/
def followTasks (started : Bool) (follower : Option Nat) : List Task :=
  match follower with
  | none => []
  | some f => if started then [.followEnd f] else [.rejudge f]

/-- After the five steps of a departure at an item's end the deck enters IDLE, and binding runs again (R41, R80). -/
def idleTasks (r : CueRecord) : List Task :=
  match r.sounding, r.deck with
  | true, some d => [.deckIdle d, .bind]
  | _, _ => []

/-- A departure with its five steps (R57), and the deck's return to IDLE after them (R80). The follower is the one that stood behind the
record when it left: where the fit of step 3 drops that one, step 4 finds no record, and the next is judged by the departure of the
dropped one alone. R57 does not say from which list the follower is taken (assumption 42). -/
def State.depart (s : State) (tag : Nat) (c : Cause) : State :=
  match s.find tag with
  | none => s
  | some r =>
    (s.removeRecord tag c false).emit (leftTasks r ++ followTasks r.sounding (s.follower tag r.group) ++ [.bind] ++ idleTasks r)

end Sys2Proof.Machine
end

