-- ==== Sys2Proof/Machine/Decks.lean ====
section
/-! DEFINITION. The decks (chapter 4): starts, marks, fades, truncation, blocks and the end of an item; and the local duck
requests that follow them (R99, R103). -/

namespace Sys2Proof.Machine

/-! ### Local duck requests -/

def duckNotice (q : DuckRequest) (depth : Nat) : Notice :=
  .duck ⟨byteField q.domain, wordField depth, wordField q.tag⟩

def State.setRequest (s : State) (d : DeckNo) (q : Option DuckRequest) : State :=
  { s with mix := { s.mix with requests := s.mix.requests.set d q } }

/-- A deck's duck request becomes active at a start, when its depth is above 0 and its group is in a domain; while LIVE a
DUCK announces it (R99, R103). -/
def State.activateDuck (s : State) (d : DeckNo) (tag : Nat) (it : Item) : State :=
  if it.duck = 0 ∨ s.domain it.group = 0 then s
  else
    let q : DuckRequest := ⟨s.domain it.group, it.duck, tag⟩
    (s.setRequest d (some q)).handLive (duckNotice q it.duck)

/-- A deck's active duck request is withdrawn; while LIVE a DUCK of depth 0 says so (R99, R103). -/
def State.withdrawDuck (s : State) (d : DeckNo) : State :=
  match s.mix.requests[d] with
  | none => s
  | some q => (s.setRequest d none).handLive (duckNotice q 0)

/-! ### End of an item (R79, R80) -/

/-- An item ends: the duck request is withdrawn, END is handed while LIVE, the record departs and the deck returns to
IDLE (R80). -/
def State.endItem (s : State) (d : DeckNo) (c : Cause) : State :=
  let x := s.deck d
  match x.bound, x.item with
  | some tag, some it =>
    match s.find tag with
    | none => s
    | some r =>
      let s := s.withdrawDuck d
      let s := s.handLive (.finish ⟨wordField tag, byteField it.group.val, byteField (r.finalCause c).outcome.code,
        timeField (some s.now)⟩)
      s.depart tag c
  | _, _ => s

/-! ### Fades (R73 to R76) -/

/-- A fade-out begins at a position: the deck enters FADING and withdraws its duck request; at or above its length the
item ends at once (R74). -/
def State.enterFade (s : State) (d : DeckNo) (len : Nat) (law : Law) (c : Cause) (pos : Nat) : State :=
  if len ≤ pos then s.endItem d c
  else (s.modDeck d fun x =>
    { x with state := .fading, fadeIn := none, fadeOut := some ⟨pos, len, law, c⟩ }).withdrawDuck d

/-- The position at which a fade-out request would enter: over a fade-in at its equivalent point (R75), over a running fade-out
if it would end the item earlier (R76); absent when the request is discarded or ignored (R74). -/
def Deck.fadeEntry (x : Deck) (len entry : Nat) : Option Nat :=
  match x.state with
  | .idle => none
  | .priming => none
  | .armed => none
  | .playing =>
    match x.fadeIn with
    | none => some entry
    | some f => some (max (roundDiv ((f.len - f.pos) * len) f.len) entry)
  | .fading =>
    match x.fadeOut with
    | none => some entry
    | some f =>
      let q := max (roundDiv (f.pos * len) f.len) entry
      if len = 0 ∨ (len : Int) - q < (f.len : Int) - f.pos then some q else none

/-- A fade-out request (R74 to R76). -/
def State.requestFade (s : State) (d : DeckNo) (len : Nat) (law : Law) (c : Cause) (entry : Nat) : State :=
  match (s.deck d).fadeEntry len entry with
  | none => s
  | some q => s.enterFade d len law c q

/-- A fade-out request would end the item at once (R74 to R76). -/
def Deck.endsAtOnce (x : Deck) (len entry : Nat) : Bool := (x.fadeEntry len entry).any fun q => decide (len ≤ q)

/-- The record fade-out length: the override, else the snapshot's fade length when not 0, else 480 (R35). -/
def CueRecord.fadeOutLen (r : CueRecord) : Nat :=
  match r.fadeOut with
  | some n => n
  | none =>
    match r.snapshot with
    | some sn => if sn.fadeLen = 0 then 480 else sn.fadeLen
    | none => 480

/-! ### Truncation (R78) -/

/-- The end position under a truncation end (R78). -/
def endPosition (elen p now : Nat) : Option Nat → Nat
  | none => elen
  | some t => if isDue t now then p else min elen (p + subAir t now)

/-- The record's truncation end applied to its deck: end position, scheduled truncation fade, fetch limit, and the slots
at or beyond the limit (R78). The fade and the end that are already reached are taken by the marks that follow. -/
def Deck.truncate (x : Deck) (elen blocks fadeLen now : Nat) (t : Option Nat) : Deck :=
  let e := endPosition elen x.p now t
  let lt := min fadeLen e
  let want := if x.sounding then ceilDiv e 1024 else blocks
  let limit := if x.storeEnd then min want x.fetchLimit else want
  { x with
    endPos := e
    trunc := if e < elen then some ⟨e - lt, lt⟩ else none
    fetchLimit := limit
    ring := mapRing (fun sl => match sl with
      | .filled b a => if limit ≤ b then .free else .filled b a
      | .free => .free
      | .inFlight b => .inFlight b) x.ring }

def State.applyTruncation (s : State) (d : DeckNo) : State :=
  let x := s.deck d
  match x.bound, x.item with
  | some tag, some it =>
    match s.find tag with
    | none => s
    | some r => s.setDeck d (x.truncate it.elen it.blocks r.fadeOutLen s.now r.truncEnd)
  | _, _ => s

/-- The marks and the end at a deck's position, in the order of R66. -/
def markTasks (d : DeckNo) : List Task := [.fadeMark d, .truncBegin d, .segueMark d, .itemEnd d]

/-! ### The segue (R72) -/

/-- The running order is told that a record's segue has been reached: its follower hears of it (R72, R83). -/
def State.tellSegue (s : State) (tag : Nat) : State :=
  match s.find tag with
  | none => s
  | some r => s.emit (match s.follower tag r.group with | none => [] | some f => [.followSegue f])

/-- The segue is taken as reached: the flag is set, SEGUE is handed while LIVE, and the running order's follower is told (R72). -/
def State.takeSegue (s : State) (d : DeckNo) (time : Nat) : State :=
  let x := s.deck d
  match x.bound, x.item with
  | some tag, some it =>
    if x.segued || !x.sounding then s
    else
      let s := s.modDeck d fun x => { x with segued := true }
      let s := s.handLive (.segue ⟨wordField tag, byteField it.group.val, timeField (some time)⟩)
      s.emit (match s.follower tag it.group with | none => [] | some f => [.followSegue f])
  | _, _ => s

/-! ### Events at a position (R66) -/

def Deck.segueDue (x : Deck) : Bool :=
  x.sounding && !x.segued && (match x.item with | some it => decide (it.segue ≤ x.p) | none => false)

def Deck.fadeMarkDue (x : Deck) : Bool :=
  x.sounding && !x.fadeMarkDone && (match x.item with
    | some it => (match it.fadeMark with
      | some m => decide (m ≤ x.p) && decide (m < x.endPos)
      | none => false)
    | none => false)

def Deck.truncDue (x : Deck) : Bool :=
  x.sounding && (match x.trunc with | some t => decide (t.begin_ ≤ x.p) | none => false)

def Deck.fadeOutDone (x : Deck) : Bool := match x.fadeOut with | some f => decide (f.len ≤ f.pos) | none => false

def Deck.endDue (x : Deck) : Bool := x.sounding && (x.fadeOutDone || decide (x.endPos ≤ x.p))

def Deck.fadeInDue (x : Deck) : Bool := match x.fadeIn with | some f => decide (f.len ≤ f.pos) | none => false

def Deck.blockDue (x : Deck) : Bool := x.sounding && decide (x.playBlock ≠ x.p / 1024) && decide (x.p < x.endPos)

/-- SEGUE_MARK: the play position reaches the segue mark (R72). -/
def State.segueMarkAt (s : State) (d : DeckNo) : State :=
  let x := s.deck d
  if x.segueDue then
    match x.item, x.actualStart with
    | some it, some st => s.takeSegue d (addAir st it.segue)
    | _, _ => s
  else s

/-- The request of a mark that begins a fade. R66 takes it before a segue mark at the same position; where it ends the item at
once, as a fade of length 0 does, R72 has that segue taken before the end, and so before the request (assumption 34). -/
def State.fadeAtMark (s : State) (d : DeckNo) (len : Nat) (law : Law) (c : Cause) (entry : Nat) : State :=
  (if (s.deck d).endsAtOnce len entry then s.segueMarkAt d else s).requestFade d len law c entry

/-- FADE_MARK: a fade-out request of the snapshot's fade length with cause COMPLETE; past its mark in a positioned start it
enters at the distance passed (R77, R83). -/
def State.fadeMarkAt (s : State) (d : DeckNo) : State :=
  let x := s.deck d
  if x.fadeMarkDue then
    match x.item with
    | none => s
    | some it =>
      match it.fadeMark with
      | none => s
      | some m => (s.modDeck d fun x => { x with fadeMarkDone := true }).fadeAtMark d it.fadeLen it.law ⟨.complete, .none⟩
          (x.p - m)
  else s

/-- TRUNCATION_FADE_BEGIN: the scheduled truncation fade makes its request, entering at the distance passed (R78). -/
def State.truncBeginAt (s : State) (d : DeckNo) : State :=
  let x := s.deck d
  if x.truncDue then
    match x.item, x.trunc with
    | some it, some t => (s.modDeck d fun x => { x with trunc := none }).fadeAtMark d t.len it.law ⟨.truncated, .none⟩
        (x.p - t.begin_)
    | _, _ => s
  else s

/-- The cause of an end at the present position: the fade that reached its length, else COMPLETE at the effective length and
TRUNCATED before it (R79). -/
def Deck.endCause (x : Deck) (it : Item) : Cause :=
  match x.fadeOut with
  | some f => if f.len ≤ f.pos then f.cause
      else if x.endPos = it.elen then ⟨.complete, .none⟩ else ⟨.truncated, .none⟩
  | none => if x.endPos = it.elen then ⟨.complete, .none⟩ else ⟨.truncated, .none⟩

/-- ITEM_END at a position (R79, R80). -/
def State.itemEndAt (s : State) (d : DeckNo) : State :=
  let x := s.deck d
  if x.endDue then
    match x.item with
    | none => s
    | some it => s.endItem d (x.endCause it)
  else s

/-- FADE_IN_END: the fade-in position has reached its length and the fade-in ends (R73). -/
def State.fadeInEndAt (s : State) (d : DeckNo) : State :=
  if (s.deck d).fadeInDue then s.modDeck d fun x => { x with fadeIn := none } else s

/-- A ring holds a block, FILLED or IN_FLIGHT. -/
def Deck.holds (x : Deck) (b : Nat) : Bool := x.ring.toList.any fun sl => sl.block? == some b

/-- FILLED slots holding blocks below `b` become FREE (R66). -/
def freeBelow (b : Nat) (r : Vector Slot 16) : Vector Slot 16 :=
  mapRing (fun sl => match sl with
    | .filled k a => if k < b then .free else .filled k a
    | .free => .free
    | .inFlight k => .inFlight k) r

/-- BLOCK_ENTERED: the previous slots become FREE, and a block that is neither FILLED nor IN_FLIGHT is skipped (R66, R69). -/
def Deck.enterBlock (x : Deck) : Deck :=
  let b := x.p / 1024
  { x with ring := freeBelow b x.ring, playBlock := b, fetchPtr := if x.holds b then x.fetchPtr else max x.fetchPtr (b + 1) }

def State.blockEnteredAt (s : State) (d : DeckNo) : State :=
  if (s.deck d).blockDue then s.modDeck d Deck.enterBlock else s

/-- The skip-silent timer of a LIVE engine has reached S seconds on a PLAYING deck (R82). The timer moves when a sample period's
frame has been judged, so the check acts in the sample period after the frame that completes the count: R82 does not say whether
it is that period or the frame's own (assumption 35). -/
def State.skipDue (s : State) (d : DeckNo) : Bool :=
  s.isLive && decide (s.cfg.skipSilent ≠ 0) && decide (s.cfg.skipSilent * 48000 ≤ s.monitor.timers[d])
    && (s.deck d).state == .playing

/-- SKIP_SILENT: the segue is taken as reached, then a fade-out of 480 samples is requested with cause SKIPPED_SILENT (R82). -/
def State.skipSilentAt (s : State) (d : DeckNo) : State :=
  if s.skipDue d then
    match (s.deck d).item with
    | none => s
    | some it => ((s.takeSegue d s.now).requestFade d 480 it.law ⟨.skippedSilent, .none⟩ 0).setTimer d 0
  else s

/-! ### Starting an item (R64, R83) -/

/-- The START notice of a sounding deck (R65). -/
def startNotice (r : CueRecord) (x : Deck) (it : Item) (start : Nat) : Notice :=
  .start ⟨wordField r.tag, wordField r.cart, byteField it.group.val, byteField it.cls.code, byteField (it.breakId.getD 0),
    timeField (some start), timeField (some (addAir start (min it.segue x.endPos))), timeField (some (addAir start x.endPos))⟩

/-- The catch-up position: (now − start) mod Dlen when the start tests due, else 0 (R181); 0 without a shadow start. -/
def catchUp (now : Nat) : Option Nat → Nat
  | none => 0
  | some st => if isDue st now then subAir now st else 0

/-- A positioned start at `p0` has passed the item's segue mark (R83). -/
def Item.passedAt (it : Item) (p0 : Nat) : Bool := decide (0 < p0) && decide (it.segue ≤ p0)

/-- The deck at the start of its item, at position `p0`; a segue mark that a positioned start has passed is flagged at once, and so no
SEGUE is ever handed for it (R64, R83; assumption 16). -/
def Deck.startAt (x : Deck) (it : Item) (p0 start : Nat) : Deck :=
  { x with
    state := .playing, actualStart := some start, p := p0, playBlock := p0 / 1024
    ring := freeBelow (p0 / 1024) x.ring, fetchPtr := max x.fetchPtr (p0 / 1024)
    fadeIn := if p0 < it.fadeIn then some ⟨p0, it.fadeIn⟩ else none
    fadeOut := none, trunc := none, segued := it.passedAt p0, aired := 0, duckValue := 0, fadeMarkDone := false }

/-- The deck's gain words become 0 (R96); the duck value from which a computation of this sample period steps is the 0 of the
start (R64, R88). -/
def State.zeroWords (s : State) (d : DeckNo) : State :=
  { s with mix := { s.mix with
      lastWord := s.mix.lastWord.set d 0, newWord := s.mix.newWord.set d 0, duckBase := s.mix.duckBase.set d 0 } }

/-- The record becomes ON_AIR (R45): actual start, triggered and set-aside marks cleared, aired-while-live set while LIVE (R183). -/
def CueRecord.goOnAir (r : CueRecord) (start : Nat) (live cold late : Bool) : CueRecord :=
  { r with
    state := .onAir, actualStart := some start, triggered := false, setAside := false, airedLive := r.airedLive || live
    flags := { r.flags with coldStart := r.flags.coldStart || cold, lateStart := r.flags.lateStart || late } }

/-- A record's deck starts its item now, at the catch-up position of `since` (R45, R64, R83). What follows the start: the break
fitter is told, a store-end fade is requested, and the marks at the position are taken; in a positioned start the running order is told of
a passed segue mark before the fades (assumption 14). -/
def State.startDeck (s : State) (r : CueRecord) (d : DeckNo) (it : Item) (since : Option Nat) (cold late : Bool) : State :=
  let p0 := catchUp s.now since
  let start := subAir s.now p0
  let s := (s.modRecord r.tag fun r => r.goOnAir start s.isLive cold late).cancelRecordExpiries r.tag
  let s := ((s.modDeck d fun x => x.startAt it p0 start).setTimer d 0).zeroWords d
  let s := (s.applyTruncation d).activateDuck d r.tag it
  let s := s.handLive (startNotice r (s.deck d) it start)
  s.emit ((if r.breakId.isSome then [.memberStarted r.tag] else [])
    ++ (if (s.deck d).storeEnd then [.storeEnd d] else [])
    ++ (if it.passedAt p0 then [.seguePast r.tag] else []) ++ markTasks d)

/-! ### Blocks (R62, R68, R70, R71) -/

/-- The deck is primed (R62). -/
def Deck.primed (x : Deck) : Bool :=
  x.state == .priming && !(x.ring.toList.any Slot.isInFlight)
    && (decide (12 ≤ x.ring.toList.countP Slot.isFilled) || decide (x.fetchLimit ≤ x.fetchPtr))

/-- A primed deck enters ARMED and reports to the running order (R62). -/
def State.judgePrimed (s : State) (d : DeckNo) : State :=
  let x := s.deck d
  match x.primed, x.bound with
  | true, some tag => (s.modDeck d fun x => { x with state := .armed }).emit [.armed tag]
  | _, _ => s

/-- The cause of the store-end fade (R71). -/
def storeEndCause : Cause := ⟨.faded, .store⟩

/-- The store-end fade is the running fade-out (R71). -/
def Deck.inStoreEnd (x : Deck) : Bool := x.state == .fading && x.fadeOut.any fun f => f.cause == storeEndCause

/-- The store-end fade request of 480 samples of an item with the store-end mark, and the segue taken as reached (R71); before the
request where it ends the item at once (R72, R75). -/
def State.storeEndAt (s : State) (d : DeckNo) : State :=
  match (s.deck d).storeEnd, (s.deck d).item with
  | false, _ => s
  | true, none => s
  | true, some it =>
    let s := if (s.deck d).endsAtOnce 480 0 then s.takeSegue d s.now else s
    (s.requestFade d 480 it.law storeEndCause 0).takeSegue d s.now

/-- What becomes of a slot when its block is handed over: FREE when the block is behind the position or at or beyond the
fetch limit, else FILLED (R68). -/
def Deck.slotOf (x : Deck) (b : Nat) (audio : List Byte) : Slot :=
  if x.fetchLimit ≤ b || (x.sounding && decide (1024 * (b + 1) ≤ x.p)) then .free else .filled b audio

/-- FAULT of a kind on a group, set or clear (R119). -/
def faultNotice (group kind : Nat) (set : Bool) : Notice := .fault ⟨byteField group, byteField kind, if set then 1 else 0⟩

/-- A STORE FAULT of a LIVE engine (R118). R119 has it handed after the other FAULTs of its sample period, so it waits for them
(assumption 41). -/
def State.storeFault (s : State) (group : Nat) : State :=
  if s.isLive then
    { s with monitor := { s.monitor with storeFaults := s.monitor.storeFaults ++ [⟨s.period, group⟩] } }
  else s

/-- The waiting STORE FAULTs of the sample periods that a test names are handed, in the order in which they arose (R119). -/
def State.releaseStoreFaults (s : State) (p : Nat → Bool) : State :=
  (s.monitor.storeFaults.filter fun f => p f.period).foldl (fun s f => s.handLive (faultNotice f.group 3 true))
    { s with monitor := { s.monitor with storeFaults := s.monitor.storeFaults.filter fun f => !p f.period } }

/-- A block is handed to a deck: `none` when it failed after its second BAD read. A failed block is FILLED with zeros and
counted, sets the STORE flag and is reported to the output monitor (R70, R118); a fourth in a row sets the store-end mark
(R71). A GOOD block sets the substitution run to 0. -/
def State.handBlock (s : State) (d : DeckNo) (slot : Fin 16) (b : Nat) (audio : Option (List Byte)) : State :=
  let x := s.deck d
  match audio with
  | some a =>
    (s.setDeck d { x with ring := x.ring.set slot (x.slotOf b a), run := 0 }).judgePrimed d
  | none =>
    let run := min 4 (x.run + 1)
    let ends := decide (run = 4) && !x.storeEnd
    let s1 := s.setDeck d
      { x with
        ring := x.ring.set slot (x.slotOf b []), run := run, substituted := min 255 (x.substituted + 1), storeFlag := true
        storeEnd := x.storeEnd || ends, fetchLimit := if ends then min x.fetchLimit x.fetchPtr else x.fetchLimit }
    let s2 := if x.storeFlag then s1 else
      match x.item with
      | none => s1
      | some it => s1.storeFault it.group.val
    (if ends && x.sounding then s2.storeEndAt d else s2).judgePrimed d

end Sys2Proof.Machine
end

