-- ==== Sys2Proof/Machine/Records.lean ====
section
/-! DEFINITION. The running order (chapter 3): marks and judgements of waiting records, binding and reclaim, records that leave
together, LOAD. Triggers and starts, displacement and overtaking stand in Triggers.lean. -/

namespace Sys2Proof.Machine

/-! ### Marks (R44, R180) -/

/-- A trigger finds the record waiting for a deck and already marked (R44). -/
def CueRecord.markedWaiting (r : CueRecord) : Bool :=
  r.triggered && (r.state == .headerWait || r.state == .queued)

/-- A record is marked triggered (R44). -/
def State.markTriggered (s : State) (tag : Nat) : State := s.modRecord tag fun r => { r with triggered := true }

/-- The partner's START marks a waiting record triggered, with the start as its shadow start unless it holds one (R181). -/
def State.markShadow (s : State) (tag : Nat) (start : Option Nat) : State :=
  s.modRecord tag fun r => { r with triggered := true, shadowStart := r.shadowStart.or start }

/-- A trigger is set aside: the record's set-aside mark is set (R180). A record that waits for a deck and is marked triggered takes no mark,
since in LIVE R44 has a trigger do nothing more to it; that holds also for a HARD_AT record that only the partner's START has marked, with
its displacement still to come, for which R180 leaves it open (assumption 45). -/
def State.setAsideMark (s : State) (r : CueRecord) : State :=
  if r.markedWaiting then s else s.modRecord r.tag fun r => { r with setAside := true }

/-- A judgement triggers an unstarted record of a kind that displaces nothing. A waiting record takes its mark at once, and a mark
set aside likewise (R44, R180); one that has a deck starts as a reaction, so that a fit or an overtaking in progress is carried out
first (R129; assumption 8). -/
def State.triggerLater (s : State) (tag : Nat) : State :=
  match s.find tag with
  | none => s
  | some r =>
    if !r.unstarted then s
    else if !s.isLive then s.setAsideMark r
    else match r.state with
      | .headerWait => s.markTriggered tag
      | .queued => s.markTriggered tag
      | .bound => s.emit [.trigger tag]
      | .armed => s.emit [.trigger tag]
      | .onAir => s
      | .clearing => s

/-! ### Start conditions (R43, R47 to R50) -/

/-- The predecessor is sounding and has reached its segue mark, or there is none (R47). -/
def State.clearAhead (s : State) (r : CueRecord) : Bool :=
  match s.predecessor r.tag r.group with
  | none => true
  | some p => s.hasSegued p

/-- A start time that tests due. -/
def State.startDue (s : State) (r : CueRecord) : Bool :=
  match r.startTime with
  | none => false
  | some t => isDue t s.now

/-- A notice from station `q` is a source for a record naming `peer` (R168). -/
def State.isSource (s : State) (q peer : Station) : Bool :=
  q == peer || (s.peer peer).partner == some q || (s.peer q).partner == some peer

/-- A source holds the tag among its ended tags or as an item segued (R173). -/
def State.peerDone (s : State) (st : Station) (tag : Nat) : Bool :=
  allStations.any fun q => s.isSource q st &&
    ((s.peer q).ended.contains tag || (s.peer q).items.any fun i => i.tag == tag && i.segued)

/-- The AFTER_PEER condition is met at the moment the record reaches ARMED: its scheduled start tests due. The peer table is not
judged again, since R173 judges it once, at the LOAD (R51; assumption 12). -/
def State.peerMet (s : State) (r : CueRecord) : Bool :=
  match r.scheduled with
  | none => false
  | some x => isDue x s.now

/-- The start condition of an ARMED record (R43). -/
def State.conditionMet (s : State) (r : CueRecord) : Bool :=
  (match r.kind with
    | .hardAt => s.startDue r
    | .softAt => s.startDue r && s.clearAhead r
    | .afterPrev => (s.predecessor r.tag r.group).isNone
    | .followPrev => (s.predecessor r.tag r.group).isNone
    | .afterPeer => s.peerMet r
    | .go => false)
  || (match r.latest with | none => false | some t => isDue t s.now)

/-- A record is judged again because its predecessor has changed (R50). -/
def State.rejudge (s : State) (tag : Nat) : State :=
  match s.find tag with
  | none => s
  | some r =>
    let pred := s.predecessor tag r.group
    let fire := r.unstarted && (match r.kind with
      | .afterPrev => (match pred with
        | none => r.state == .armed
        | some p => s.hasSegued p)
      | .followPrev => pred.isNone && r.state == .armed
      | .softAt => s.startDue r && s.clearAhead r
      | .hardAt => false
      | .go => false
      | .afterPeer => false)
    if fire then s.triggerLater tag else s

/-- The item of a source with which a new AFTER_PEER record is scheduled: announced as the tag with an expected segue by a
source whose clock is LOCKED; of several such, the newest. R173 has X from the newest item when several sources hold the tag, and
does not say what holds when that item has no expected segue or its source is not LOCKED: here those are left out first
(assumption 32). -/
def State.scheduleItem (s : State) (st : Station) (tag : Nat) : Option Announced :=
  ((allStations.filter fun q => s.isSource q st && (s.peer q).clock == some .locked).flatMap fun q =>
    (s.peer q).items.filter fun i => i.tag == tag && i.segue.isSome).foldl
    (fun best i => match best with
      | none => some i
      | some b => if b.stamp < i.stamp then some i else some b) none

/-- A scheduled start X is set on a record with its expiry (R169). -/
def State.schedule (s : State) (tag x : Nat) : State :=
  (s.modRecord tag fun r => { r with scheduled := some x }).setAir (.scheduledStart tag) x

/-- A new record's start condition is judged against the list and the peer table (R38 step 4, R40, R173). -/
def State.judgeNew (s : State) (tag : Nat) : State :=
  match s.find tag with
  | none => s
  | some r =>
    match r.kind with
    | .afterPrev =>
      (match s.predecessor tag r.group with
        | some p => if s.hasSegued p then s.triggerLater tag else s
        | none => s)
    | .afterPeer =>
      (match r.peer with
        | none => s
        | some (st, pt) =>
          if s.peerDone st pt || (s.peer st).presence == .lost then s.triggerLater tag
          else if s.clock.state = .locked then
            match s.scheduleItem st pt with
            | none => s
            | some i => (match i.segue with | none => s | some x => s.schedule tag x)
          else s)
    | .hardAt => s
    | .softAt => s
    | .followPrev => s
    | .go => s

/-! ### Binding (R41, R42, R60) -/

/-- The item values a deck copies at binding (R60). -/
def itemOf (r : CueRecord) (sn : Snapshot) : Item :=
  { group := r.group, cls := sn.cls, format := sn.format, firstBlock := sn.firstBlock, elen := sn.elen, segue := sn.segue
    fadeMark := sn.fadeMark, fadeLen := sn.fadeLen, blocks := sn.blocks, trim := sn.trim, fadeIn := r.fadeIn, law := r.law
    duck := r.duck, breakId := r.breakId }

/-- An IDLE deck begins priming a record (R60). -/
def Deck.bindTo (x : Deck) (r : CueRecord) (sn : Snapshot) : Deck :=
  { x.toIdle with
    state := .priming, bound := some r.tag, item := some (itemOf r sn), fetchLimit := sn.blocks, endPos := sn.elen }

/-- A QUEUED record is bound to a deck; one marked triggered then starts with LATE_START, at the catch-up position of its shadow
start if it holds one (R41, R44, R181). -/
def State.bindRecord (s : State) (r : CueRecord) (sn : Snapshot) (d : DeckNo) : State :=
  ((s.modDeck d fun x => x.bindTo r sn).modRecord r.tag fun r => { r with state := .bound, deck := some d }).emit
    (if r.triggered then [.start r.tag r.shadowStart false true] else [])

/-- The earliest QUEUED record, but for those about to leave. -/
def State.earliestQueued (s : State) (gone : List Nat) : Option CueRecord :=
  s.records.find? fun r => r.state == .queued && !gone.contains r.tag

/-- The latest record that is BOUND or ARMED; one bound with its triggered mark is about to start (R41). -/
def State.latestBound (s : State) : Option CueRecord :=
  s.records.reverse.find? fun r => (r.state == .bound || r.state == .armed) && !r.triggered

/-- A record stands before another in the list. -/
def State.before (s : State) (a b : Nat) : Bool :=
  ((s.records.dropWhile fun r => r.tag != a).drop 1).any fun r => r.tag == b

/-- The lowest-numbered IDLE deck. -/
def State.idleDeckNo (s : State) : Option DeckNo := allDecks.find? fun d => (s.deck d).state == .idle

/-- A bound, unstarted record gives its deck up and returns to QUEUED (R42). -/
def State.reclaim (s : State) (r : CueRecord) (d : DeckNo) : State :=
  (s.idleDeck d).modRecord r.tag fun r => { r with state := .queued, deck := none }

/-- One binding, if one is to be made: the earliest QUEUED record to the lowest IDLE deck (R41); with no deck IDLE, to the deck
reclaimed from the latest BOUND or ARMED record behind it (R42). Records about to leave are passed over. -/
def State.bindOnce (s : State) (gone : List Nat) : Option State :=
  match s.earliestQueued gone with
  | none => none
  | some r =>
    match r.snapshot with
    | none => none
    | some sn =>
      match s.idleDeckNo with
      | some d => some (s.bindRecord r sn d)
      | none =>
        match s.latestBound with
        | none => none
        | some v =>
          match v.deck with
          | none => none
          | some d => if s.before r.tag v.tag then some ((s.reclaim v d).bindRecord r sn d) else none

/-- Binding: repeated while it binds something, each start taken before the next (R41, R42). -/
def State.bind (s : State) : State :=
  match s.bindOnce [] with
  | none => s
  | some t => t.emit [.bind]

/-- Binding inside a fit, an overtaking or a rejoin guard: the starts wait until that is carried out (R129; assumption 8). -/
def State.bindHeld (gone : List Nat) : Nat → State → State
  | 0, s => s
  | n + 1, s =>
    match s.bindOnce gone with
    | none => s
    | some t => State.bindHeld gone n t

/-- The bindings that one departure can lead to are fewer. -/
def bindFuel : Nat := 256

/-! ### Records that leave together (R46, R57, R134, R137) -/

/-- One of several unstarted records leaves, with the five steps of R57 in their order: `told` is what the break fitter does at
step 3, `rest` are those still to leave, which the bindings and the fits in between pass over (assumption 8). The follower is taken as
the record leaves (assumption 42). -/
def State.leaveOne (s : State) (c : Cause) (byFit : Bool) (told : State → CueRecord → List Nat → State) (tag : Nat)
    (rest : List Nat) : State :=
  match s.find tag with
  | none => s
  | some r =>
    let follower := s.follower tag r.group
    let s := told (s.removeRecord tag c byFit) r rest
    State.bindHeld rest bindFuel (match follower with | none => s | some f => s.rejudge f)

/-- Several unstarted records leave, in list order; `gone` are others about to leave. -/
def State.leaveAll (c : Cause) (byFit : Bool) (told : State → CueRecord → List Nat → State) (gone : List Nat) :
    List Nat → State → State
  | [], s => s
  | t :: rest, s => State.leaveAll c byFit told gone rest (s.leaveOne c byFit told t (rest ++ gone))

/-- Step 3 of R57 for the departures that a fit or the rejoin guard causes: they run no fit (R129). -/
def tellNoFit (s : State) (_ : CueRecord) (_ : List Nat) : State := s

/-! ### LOAD (R36 to R38) -/

/-- The tests of R36 in their order: the reason of the first that fails. -/
def State.loadRefusal (s : State) (f : LoadFields) : Option Reason :=
  let tag := f.tag.toNat
  let badStart := match readStartKind f.kind with
    | none => true
    | some .hardAt => decide (dayLength ≤ f.start.toNat)
    | some .softAt => decide (dayLength ≤ f.start.toNat)
    | some .afterPeer => decide (15 < loadPeerStation f) || loadPeerStation f == s.ownStation.val || loadPeerTag f == 0
    | some .afterPrev => false
    | some .followPrev => false
    | some .go => false
  let badLatest := match readLoadTime f.latest with
    | none => false
    | some t => decide (dayLength ≤ t)
  if tag = 0 ∨ 65280 ≤ tag then some .reservedTag
  else if decide (3 < f.group.toNat) || badStart || (readLaw f.law).isNone || badLatest || (f.breakId != 0 && f.group == 0) then some .badField
  else if (s.find tag).isSome then some .duplicate
  else if 48 ≤ s.records.length then some .full
  else none

/-- The as-run record of a LOAD refused on arrival (R36). -/
def refusedLoad (f : LoadFields) (r : Reason) : AsRun :=
  { tag := f.tag.toNat, cart := f.cart.toNat, group := f.group.toNat, cls := none, outcome := .refused, reason := r
    breakId := readNonzero f.breakId.toNat, start := none, finish := none, aired := 0, substituted := 0, flags := {} }

/-- The record an accepted LOAD creates, its fields brought into range (R37, R38). -/
def newRecord (f : LoadFields) (kind : StartKind) : CueRecord :=
  { tag := f.tag.toNat, cart := f.cart.toNat, group := (readGroup f.group.toNat).getD 0, kind := kind
    startTime := if kind = .hardAt ∨ kind = .softAt then some f.start.toNat else none
    peer := if kind = .afterPeer then some (Fin.ofNat 16 (loadPeerStation f), loadPeerTag f) else none
    latest := readLoadTime f.latest, fadeIn := msToSamples f.fadeIn.toNat, law := (readLaw f.law).getD .linear
    fadeOut := readOverride f.fadeOut, displace := msToSamples f.displace.toNat, duck := min 300 f.duck.toNat
    breakId := readNonzero f.breakId.toNat }

/-- A record placed directly before the record with a tag, at the end when no record carries it (R34). -/
def insertBefore (tag : Nat) (r : CueRecord) : List CueRecord → List CueRecord
  | [] => [r]
  | x :: xs => if x.tag = tag then r :: x :: xs else x :: insertBefore tag r xs

/-- A record placed directly after the record with a tag (R34, R40). -/
def insertAfter (tag : Nat) (r : CueRecord) : List CueRecord → List CueRecord
  | [] => [r]
  | x :: xs => if x.tag = tag then x :: r :: xs else x :: insertAfter tag r xs

/-- An optional air-time expiry is set (R38). -/
def State.setAirOpt (s : State) (h : AirHandle) : Option Nat → State
  | none => s
  | some t => s.setAir h t

/-- An accepted LOAD's record is placed, and the five things of R38 are done in order. -/
def State.acceptLoad (s : State) (r : CueRecord) (before : Nat) : State :=
  let s := { s with records := insertBefore before r s.records }
  let s := s.askRecordFetch r.tag r.cart
  let s := (s.setAirOpt (.startTime r.tag) r.startTime).setAirOpt (.latestStart r.tag) r.latest
  s.emit ((if r.breakId.isSome then [.joined r.tag] else []) ++ [.judgeNew r.tag]
    ++ (match s.follower r.tag r.group with | none => [] | some f => [.rejudge f]))

/-- A LOAD handed to the running order (R36). -/
def State.takeLoad (s : State) (f : LoadFields) : State :=
  match s.loadRefusal f, readStartKind f.kind with
  | some r, _ => s.storeAsRun (refusedLoad f r)
  | none, some k => s.acceptLoad (newRecord f k) f.before.toNat
  | none, none => s

/-! ### Header fetch outcomes (R39) -/

/-- A record takes the outcome of its header fetch (R39). Binding runs before the break fitter hears of the snapshot. -/
def State.recordFetched (s : State) (tag : Nat) (o : FetchOutcome) : State :=
  match s.find tag with
  | none => s
  | some r =>
    match o with
    | .failed why => s.depart tag ⟨.refused, why⟩
    | .snapshot sn =>
      (s.modRecord tag fun r => { r with snapshot := some sn, fadeIn := min r.fadeIn sn.elen, state := .queued }).emit
        ([.bind] ++ (if r.breakId.isSome then [.memberReady tag] else []))

end Sys2Proof.Machine
end

