-- ==== Sys2Proof/Machine/Breaks.lean ====
section
/-! DEFINITION. The break fitter (chapter 7): the break table, members, the fit, the fill and the rejoin guard. -/

namespace Sys2Proof.Machine

/-! ### Members (R127) -/

/-- A record is a member of a break. -/
def BreakEntry.isMember (b : BreakEntry) (r : CueRecord) : Bool :=
  r.breakId == some b.id && r.group == b.group && r.tag != fillTag b.id

/-- A record is the fill record of a break: it carries the fill tag. R127 gives the fill record by its tag, and has the fitter take no
account of a record that carries the id on another group; a fill record left CLEARING by an earlier break of the id on another group is
counted here by its tag (assumption 43). -/
def BreakEntry.isFill (b : BreakEntry) (r : CueRecord) : Bool := r.tag == fillTag b.id

/-- The entry whose break a record belongs to, as member or fill. -/
def State.entryOfRecord (s : State) (r : CueRecord) : Option EntryNo :=
  match r.breakId with
  | none => none
  | some id => (s.entryOf id).filter fun e => (s.entry e).group == r.group || r.tag == fillTag id

/-- The members of a break in running-order order. -/
def State.members (s : State) (b : BreakEntry) : List CueRecord := s.records.filter b.isMember

/-- The fill record of a break. -/
def State.fillRecord (s : State) (b : BreakEntry) : Option CueRecord := s.records.find? b.isFill

/-! ### The fit's projection (R130 to R133) -/

/-- The room at an air time (R130). -/
def room (rejoin t : Nat) : Nat := if isDue rejoin t then 0 else subAir rejoin t

/-- The prior item of a fit: its tag, its end and its segue point (R131). -/
structure Prior where
  tag   : Nat
  finish : Nat
  segue : Nat
  deriving DecidableEq, Repr

/-- What a fit has decided so far. -/
structure FitPlan where
  drops  : List Nat := []
  truncs : List (Nat × Option Nat) := []
  prior  : Option Prior := none
  deriving DecidableEq, Repr

def CueRecord.elen (r : CueRecord) : Nat := match r.snapshot with | some sn => sn.elen | none => 0

def CueRecord.segueLen (r : CueRecord) : Nat := match r.snapshot with | some sn => sn.segue | none => 0

def CueRecord.isAdvert (r : CueRecord) : Bool := match r.snapshot with | some sn => sn.cls == .advert | none => false

/-- A record has started in the present sample period, which is that of R. -/
def CueRecord.startsAtRejoin (r : CueRecord) (b : BreakEntry) (now : Nat) : Bool := r.actualStart == some b.rejoin && now == b.rejoin

/-- The truncation end a fit decides for a sounding member (R130 step 1). For one that starts in the sample period of R, R130 and R78
would end it at its start, and R137 has it sounding at the guard and ended 480 samples later: it is given no truncation end, and the guard
deals with it (assumption 37). -/
def soundingTrunc (b : BreakEntry) (r : CueRecord) (now : Nat) : Option Nat :=
  if r.isAdvert then r.truncEnd
  else if room b.rejoin (r.actualStart.getD 0) < r.elen ∧ r.startsAtRejoin b now = false then some b.rejoin else none

/-- The anchor: the sounding record of the break with the latest actual start, of several the latest in the list (R130 step 2). -/
def State.anchor (s : State) (b : BreakEntry) : Option CueRecord :=
  (s.records.filter fun r => r.sounding && (b.isMember r || b.isFill r)).foldl
    (fun best r => match best with
      | none => some r
      | some a => if subAir s.now (r.actualStart.getD 0) ≤ subAir s.now (a.actualStart.getD 0) then some r else some a) none

/-- The anchor's end, as a distance from its actual start (R130 step 3). For a fill with a fill fade whose deck is FADING by another fade,
two sentences of that step apply: the end of the running fade-out is taken (assumption 47). -/
def State.anchorSpan (s : State) (b : BreakEntry) (r : CueRecord) : Nat :=
  let start := r.actualStart.getD 0
  let x := match r.deck with | some d => s.deck d | none => {}
  match x.fadeOut with
  | some f => x.p + (f.len - f.pos)
  | none =>
    if b.isFill r && b.fillFade.isSome then subAir b.rejoin start
    else endPosition r.elen x.p s.now (if b.isMember r then soundingTrunc b r s.now else r.truncEnd)

/-- The anchor as the first prior (R130 step 3). -/
def State.anchorPrior (s : State) (b : BreakEntry) (r : CueRecord) : Prior :=
  let start := r.actualStart.getD 0
  let span := s.anchorSpan b r
  ⟨r.tag, addAir start span, addAir start (min r.segueLen span)⟩

/-- One candidate taken (R131, R132). -/
def State.fitCandidate (s : State) (b : BreakEntry) (plan : FitPlan) (r : CueRecord) : FitPlan :=
  match r.snapshot with
  | none => plan
  | some sn =>
    let p := match plan.prior with
      | none => s.now
      | some q => if r.kind = .followPrev then q.finish else q.segue
    let rm := room b.rejoin p
    if sn.cls = .advert then
      if sn.elen ≤ rm then
        { plan with truncs := plan.truncs ++ [(r.tag, none)], prior := some ⟨r.tag, addAir p sn.elen, addAir p sn.segue⟩ }
      else { plan with drops := plan.drops ++ [r.tag] }
    else if 24000 < rm then
      if rm < sn.elen then
        { plan with truncs := plan.truncs ++ [(r.tag, some b.rejoin)]
                    prior := some ⟨r.tag, b.rejoin, addAir p (min sn.segue rm)⟩ }
      else
        { plan with truncs := plan.truncs ++ [(r.tag, none)], prior := some ⟨r.tag, addAir p sn.elen, addAir p sn.segue⟩ }
    else { plan with drops := plan.drops ++ [r.tag] }

/-- Steps R130 to R132: the plan over the break's members against the list as it stands. -/
def State.planFit (s : State) (b : BreakEntry) : FitPlan :=
  let members := s.members b
  let sounding := members.filter (·.sounding)
  let truncs := (sounding.filter fun r => !r.isAdvert).map fun r => (r.tag, soundingTrunc b r s.now)
  match s.anchor b with
  | none => (members.filter (·.unstarted)).foldl (s.fitCandidate b) { truncs := truncs }
  | some a =>
    let passed := ((s.records.takeWhile fun r => r.tag != a.tag).filter fun r => b.isMember r && r.unstarted).map (·.tag)
    let after := ((s.records.dropWhile fun r => r.tag != a.tag).drop 1).filter fun r => b.isMember r && r.unstarted
    after.foldl (s.fitCandidate b) { drops := passed, truncs := truncs, prior := some (s.anchorPrior b a) }

/-- The fill decision of a fit (R133). -/
structure FillPlan where
  drop  : Option Nat
  place : Bool
  short : Bool
  deriving DecidableEq, Repr

/-- The effective length of the entry's fill snapshot. -/
def BreakEntry.fillElen (b : BreakEntry) : Nat := match b.fillSnapshot with | some sn => sn.elen | none => 0

/-- A sounding record will end before R by its own length (R133): from its start to R there are the samples gone and those ahead, also
where R lies more than half a day after the start. -/
def State.endsBeforeRejoin (s : State) (b : BreakEntry) (r : CueRecord) : Bool :=
  decide (r.elen < subAir s.now (r.actualStart.getD 0) + room b.rejoin s.now)

/-- R133 on the projected end. A fill record that sounds decides the row alone. Where that is the CLEARING fill of an earlier break of the
id and the entry's own fill is UNPLACED and READY, R133's third row holds as well: here no fill is asked for, and so none is refused
(assumption 44). -/
def State.planFill (s : State) (b : BreakEntry) (prior : Option Prior) (projected : Nat) : FillPlan :=
  let gap := room b.rejoin projected
  let fresh : FillStatus → FillPlan := fun st =>
    if st = .unplaced ∧ b.fillState = .ready ∧ 0 < gap ∧ prior.isSome then ⟨none, true, decide (b.fillElen < gap)⟩
    else ⟨none, false, decide (0 < gap)⟩
  match s.fillRecord b with
  | none => fresh b.fillStatus
  | some r =>
    if r.sounding then
      ⟨none, false, s.endsBeforeRejoin b r⟩
    else if (s.predecessor r.tag r.group).map (·.tag) = prior.map (·.tag) ∧ prior.isSome ∧ b.fillCart = some r.cart ∧ 0 < gap then
      ⟨none, false, decide (r.elen < gap)⟩
    else { fresh .unplaced with drop := some r.tag }

/-! ### The fill (R40, R135) -/

/-- The fill record the fitter asks for (R40). -/
def fillRecordOf (b : BreakEntry) (sn : Snapshot) : CueRecord :=
  { tag := fillTag b.id, cart := b.fillCart.getD 0, group := b.group, kind := .afterPrev, startTime := none, peer := none
    latest := none, fadeIn := 0, law := .log, fadeOut := none, displace := 0, duck := 0, breakId := some b.id
    snapshot := some sn, state := .queued }

/-- The running order creates the fill record directly after the named record, or refuses when the list is full or the
tag is present; the fill record is judged, then binding runs (R40, R134). -/
def State.placeFill (s : State) (e : EntryNo) (after : Nat) (gone : List Nat) : State :=
  let b := s.entry e
  match b.fillSnapshot with
  | none => s
  | some sn =>
    let r := fillRecordOf b sn
    if 48 ≤ s.records.length ∨ (s.find r.tag).isSome then s.modEntry e fun b => { b with short := true }
    else
      State.bindHeld gone bindFuel
        ((({ s with records := insertAfter after r s.records } : State).modEntry e fun b => { b with fillStatus := .placed }).judgeNew
          r.tag)

/-- The fill fade is judged for a sounding fill whose fade has not begun (R135). A fill that starts in the sample period of R
holds none, and the guard ends it. One that has sounded since more than half a day before R has no room either: its fade has length 0, at
R. -/
def State.judgeFillFade (s : State) (e : EntryNo) : State :=
  let b := s.entry e
  match s.fillRecord b with
  | none => s
  | some r =>
    if r.sounding && !(b.fillFade.any (·.begun)) then
      let rho := room b.rejoin (r.actualStart.getD 0)
      if rho < r.elen then
        if r.startsAtRejoin b s.now then (s.cancelAir (.fillFade e)).modEntry e fun b => { b with fillFade := none }
        else
          let lf := min 48000 rho
          let at_ := subAir b.rejoin lf
          (s.modEntry e fun b => { b with fillFade := some ⟨lf, at_, false⟩ }).setAir (.fillFade e) at_
      else (s.cancelAir (.fillFade e)).modEntry e fun b => { b with fillFade := none }
    else s

/-- FILL_FADE_EXPIRY: the fill's deck is handed a fade-out request entering at the lateness (R135). -/
def State.fillFadeFired (s : State) (e : EntryNo) (late : Nat) : State :=
  let b := s.entry e
  match b.fillFade, s.fillRecord b with
  | some f, some r =>
    let s := s.modEntry e fun b => { b with fillFade := some { f with begun := true } }
    (match r.deck with
      | none => s
      | some d => s.requestFade d f.len r.law ⟨.truncated, .none⟩ late)
  | _, _ => s

/-! ### Carrying a fit out (R134) -/

/-- A truncation end set, moved or removed on a record, and applied to its deck while the item sounds (R78, R134). Where it
brings the item to its end at once, that is not the fit's own drop, and a further fit follows the departure: of two sentences of R129 the
list of events is followed (assumption 50). -/
def State.setTruncation (s : State) (t : Nat × Option Nat) : State :=
  match s.find t.1 with
  | none => s
  | some r =>
    if r.truncEnd = t.2 then s
    else
      let s := s.modRecord t.1 fun r => { r with truncEnd := t.2 }
      if r.sounding then
        match r.deck with
        | none => s
        | some d => (s.applyTruncation d).emit (markTasks d)
      else s

/-- The tags of a list of records to be dropped, in list order (R134). -/
def State.inListOrder (s : State) (tags : List Nat) : List Nat :=
  (s.records.map (·.tag)).filter fun t => tags.contains t

/-- A fit of a break entry: the fill fade is judged (R135), before R130 takes the anchor's end, an order that the manual does not give
(assumption 14); everything is decided against the running order as it stands
(R130 to R133), and the decisions are carried out in their order: drops, truncation ends, fill (R134). `gone` are the records that an
overtaking in progress has still to take: the fit does not count them (assumption 8). -/
def State.fitWithout (s : State) (e : EntryNo) (gone : List Nat) : State :=
  if (s.entry e).state = .running then
    let s := s.judgeFillFade e
    let b := s.entry e
    let view : State := { s with records := s.records.filter fun r => !gone.contains r.tag }
    let plan := view.planFit b
    let projected := match plan.prior with | some q => q.finish | none => s.now
    let fill := view.planFill b plan.prior projected
    let s := s.modEntry e fun b =>
      { b with projected := some projected, short := fill.short, overrunDrops := b.overrunDrops || !plan.drops.isEmpty }
    let s := State.leaveAll ⟨.dropped, .noFit⟩ true tellNoFit gone (s.inListOrder (plan.drops ++ fill.drop.toList)) s
    let s := plan.truncs.foldl State.setTruncation s
    match fill.place, plan.prior with
    | true, some q => s.placeFill e q.tag gone
    | _, _ => s
  else s

/-- A fit of a break entry (R129). -/
def State.fit (s : State) (e : EntryNo) : State := s.fitWithout e []

/-! ### What the running order tells the fitter (R127 to R129, R138) -/

/-- A record carrying a break id joined: a RUNNING break runs a fit, and an ENDED break under its id hold drops the member
(R129, R138). -/
def State.memberJoined (s : State) (tag : Nat) : State :=
  match s.find tag with
  | none => s
  | some r =>
    match s.entryOfRecord r with
    | none => s
    | some e =>
      match (s.entry e).state with
      | .running => s.emit [.fit e]
      | .ended => s.depart tag ⟨.dropped, .noFit⟩
      | .declared => s
      | .free => s

/-- A record carrying a break id started: a DECLARED break becomes RUNNING by a member, and a fit runs (R128, R129). -/
def State.memberStarted (s : State) (tag : Nat) : State :=
  match s.find tag with
  | none => s
  | some r =>
    match s.entryOfRecord r with
    | none => s
    | some e =>
      match (s.entry e).state with
      | .running => s.emit [.fit e]
      | .declared =>
        if (s.entry e).isMember r then (s.modEntry e fun b => { b with state := .running }).emit [.fit e] else s
      | .ended => s
      | .free => s

/-- A RUNNING break that holds the id, on the group unless its fill record left, runs a fit (R129, R136), which does not count the
records about to leave. -/
def State.memberLeft (s : State) (id : Nat) (g : Group) (fill : Bool) (gone : List Nat) : State :=
  match s.entryOf id with
  | none => s
  | some e => if (s.entry e).state = .running ∧ ((s.entry e).group = g ∨ fill = true) then s.fitWithout e gone else s

/-- Step 3 of R57 for an overtaken record: the break fitter is told when it carries a break id. -/
def State.tellLeft (s : State) (r : CueRecord) (gone : List Nat) : State :=
  match r.breakId with
  | none => s
  | some id => s.memberLeft id r.group (r.tag == fillTag id) gone

/-- A member's header fetch ended with a snapshot (R129). -/
def State.memberReady (s : State) (tag : Nat) : State :=
  match s.find tag with
  | none => s
  | some r =>
    match s.entryOfRecord r with
    | none => s
    | some e => if (s.entry e).state = .running then s.emit [.fit e] else s

/-- A newly declared break looks for members: one already sounding makes it RUNNING, and a fit runs (R124, R128). -/
def State.lookForMembers (s : State) (e : EntryNo) : State :=
  let b := s.entry e
  if b.state = .declared ∧ (s.members b).any (·.sounding) = true then
    (s.modEntry e fun b => { b with state := .running }).emit [.fit e]
  else s

/-! ### Declaring a break (R124, R125) -/

/-- The entry a new break takes: the lowest FREE entry, else the lowest ENDED entry whose id hold is clear (R124). -/
def State.entryForBreak (s : State) : Option EntryNo :=
  match allEntries.find? fun e => (s.entry e).state == .free with
  | some e => some e
  | none => allEntries.find? fun e => (s.entry e).state == .ended && !(s.entry e).idHold

/-- The fill fetch of an entry is asked for (R126). -/
def State.wantFill (s : State) (e : EntryNo) : State :=
  (s.modEntry e fun b => { b with fillState := .waiting, fillSnapshot := none }).askFillFetch e

/-- A new break is declared in an entry (R124). -/
def State.declare (s : State) (e : EntryNo) (id : Nat) (g : Group) (rejoin : Nat) (fill : Option Nat) : State :=
  let s := s.setEntry e { state := .declared, id := id, group := g, rejoin := rejoin, fillCart := fill }
  let s := if fill.isSome then s.wantFill e else s
  (s.setAir (.rejoin e) rejoin).emit [.lookForMembers e]

/-- The fill fetch is in progress for an entry. -/
def State.fetchingFill (s : State) (e : EntryNo) : Bool := s.reader.fetch.any fun f => f.owner == .fill e

/-- The fill fetch of an entry waits in the queue, or waits for room. -/
def State.fillQueued (s : State) (e : EntryNo) : Bool :=
  s.reader.queue.any (fun f => f.owner == .fill e) || s.reader.waiting.any fun w => w.1 == e

/-- The fill cart of an entry changes: the table of R125. -/
def State.changeFill (s : State) (e : EntryNo) (fill : Option Nat) : State :=
  let s := s.modEntry e fun b =>
    { b with fillCart := fill, fillSnapshot := none, fillState := if fill.isSome then .waiting else .none }
  if s.fetchingFill e then
    s.modReader fun r => { r with fetch := r.fetch.map fun f => { f with stale := true } }
  else if s.fillQueued e then
    match fill with
    | some c => s.modReader fun r =>
        { r with queue := r.queue.map fun f => if f.owner = .fill e then { f with cart := c } else f }
    | none => s.withdrawFetch (.fill e)
  else if fill.isSome then s.askFillFetch e
  else s

/-- A re-declaration of a held break (R125). -/
def State.redeclare (s : State) (e : EntryNo) (rejoin : Nat) (fill : Option Nat) : State :=
  let s := (s.modEntry e fun b => { b with rejoin := rejoin }).setAir (.rejoin e) rejoin
  let s := if (s.entry e).fillCart = fill then s else s.changeFill e fill
  s.emit [.fit e]

/-- A BREAK handed to the break fitter (R124). -/
def State.takeBreak (s : State) (f : BreakFields) : State :=
  let fill := readNonzero f.fill.toNat
  match readGroup f.group.toNat with
  | none => s
  | some g =>
    if g = 0 ∨ f.id = 0 ∨ dayLength ≤ f.rejoin.toNat then s
    else
      let rejoin := if isDue f.rejoin.toNat s.now then s.now else f.rejoin.toNat
      match s.entryOf f.id.toNat with
      | some e => if (s.entry e).state = .ended then s else s.redeclare e rejoin fill
      | none =>
        match s.entryForBreak with
        | none => { s with breaks := { s.breaks with full := true } }
        | some e => s.declare e f.id.toNat g rejoin fill

/-! ### Rejoin, id hold, fetch outcomes, CLEAR -/

/-- REJOIN_GUARD: sounding members and fill are faded over 480 samples, unstarted ones leave NO_FIT, the entry becomes
ENDED with its id hold set, and the end of the hold is set at R + 480 (R137). The ENDED entry holds no fill snapshot, with state NONE, and
no fill fade: the manual states neither (assumption 48). The fades of step 1 are asked for in running-order order (assumption 49). -/
def State.rejoinFired (s : State) (e : EntryNo) : State :=
  let b := s.entry e
  if b.state = .declared ∨ b.state = .running then
    let mine := s.records.filter fun r => b.isMember r || b.isFill r
    let s := (mine.filter (·.sounding)).foldl (fun s r => match r.deck with
      | none => s
      | some d => s.requestFade d 480 r.law ⟨.truncated, .none⟩ 0) s
    let s := State.leaveAll ⟨.dropped, .noFit⟩ false tellNoFit [] ((mine.filter (·.unstarted)).map (·.tag)) s
    let s := (s.withdrawFetch (.fill e)).cancelAir (.fillFade e)
    let s := s.modEntry e fun b =>
      { b with state := .ended, idHold := true, fillState := .none, fillSnapshot := none, fillFade := none, projected := none }
    s.setAir (.idHold e) (addAir b.rejoin 480)
  else s

/-- ID_HOLD_EXPIRY: the id hold is cleared (R138). -/
def State.idHoldFired (s : State) (e : EntryNo) : State := s.modEntry e fun b => { b with idHold := false }

/-- A break entry takes the outcome of its fill fetch (R126). -/
def State.fillFetched (s : State) (e : EntryNo) (stale : Bool) (o : FetchOutcome) : State :=
  let b := s.entry e
  if b.fillState = .waiting then
    if stale then s.askFillFetch e
    else match o with
      | .failed _ => s.modEntry e fun b => { b with fillState := .failed }
      | .snapshot sn =>
        (s.modEntry e fun b => { b with fillState := .ready, fillSnapshot := some sn }).emit [.fit e]
  else s

/-- CLEAR at the break fitter: every entry becomes FREE, its expiries are cancelled, BREAK_FULL is cleared (R140). The store
reader has already dropped the fill fetches (R32). -/
def State.clearBreaks (s : State) : State :=
  let s := allEntries.foldl (fun s e => ((s.cancelAir (.rejoin e)).cancelAir (.fillFade e)).cancelAir (.idHold e)) s
  { s with breaks := { s.breaks with entries := Vector.replicate 8 {}, full := false } }

end Sys2Proof.Machine
end

