-- ==== Sys2Proof/Machine/Triggers.lean ====
section
/-! DEFINITION. The running order's answers (chapter 3): displacement and overtaking, triggers and starts, the events of a
predecessor, DROP, GO and CLEAR. -/

namespace Sys2Proof.Machine

/-! ### Displacement and overtaking (R46) -/

/-- Every other sounding record on the HARD_AT record's group is given a LOG fade-out of its displace fade length, in running-order order
(R46 gives none; assumption 49). -/
def State.displace (s : State) (r : CueRecord) : State :=
  (s.records.filter fun x => x.sounding && x.group == r.group && x.tag != r.tag).foldl
    (fun s x => match x.deck with
      | none => s
      | some d => s.requestFade d r.displace .log ⟨.faded, .displaced⟩ 0) s

/-- The tags of the unstarted records on the group that stand earlier than a record. -/
def State.earlierUnstarted (s : State) (r : CueRecord) : List Nat :=
  ((s.records.takeWhile fun x => x.tag != r.tag).filter fun x => x.unstarted && x.group == r.group).map (·.tag)

/-- Overtaking: the earlier unstarted records of the group leave in list order, each with the steps of R57, DROPPED and
OVERTAKEN (R46). -/
def State.overtake (s : State) (r : CueRecord) : State :=
  State.leaveAll ⟨.dropped, .overtaken⟩ false State.tellLeft [] (s.earlierUnstarted r) s

/-- Displacement, then overtaking, applied once to a HARD_AT record (R46). Who is overtaken is judged at the trigger. Where a
displace fade length of 0 ends an item, steps 3 to 5 of its departure (R57) are reactions, carried out when the overtaken records
have left: R46 does not say whether they come before or after (assumption 8). -/
def State.displaceAndOvertake (s : State) (r : CueRecord) : State :=
  let s := s.modRecord r.tag fun r => { r with displaced := true }
  (s.displace r).overtake r

/-- Displacement and overtaking are still to be applied (R46). -/
def CueRecord.displacesNow (r : CueRecord) : Bool := r.kind == .hardAt && !r.displaced

/-! ### Triggers (R44, R180) -/

/-- A record with a deck starts; a HARD_AT record's displacement and overtaking come first if they have not been applied
(R46, R181). A record that has lost its deck meanwhile waits for one, marked triggered and with the start it was to catch up from. -/
def State.startRecord (s : State) (tag : Nat) (since : Option Nat) (cold late : Bool) : State :=
  match s.find tag with
  | none => s
  | some r =>
    if !r.unstarted then s
    else if r.displacesNow then (s.displaceAndOvertake r).emit [.start tag since cold late]
    else match r.deck with
      | none => s.markShadow tag since
      | some d =>
        match (s.deck d).item with
        | none => s
        | some it => s.startDeck r d it since cold late

/-- R44's table. -/
def State.answerTrigger (s : State) (tag : Nat) : State :=
  match s.find tag with
  | none => s
  | some r =>
    match r.state with
    | .headerWait => s.markTriggered tag
    | .queued => s.markTriggered tag
    | .bound => s.startRecord tag none true false
    | .armed => s.startRecord tag none false false
    | .onAir => s
    | .clearing => s

/-- A HARD_AT record that waits for a deck is marked before what its trigger frees is bound (R46). -/
def State.markWaiting (s : State) (r : CueRecord) : State :=
  match r.state with
  | .headerWait => s.markTriggered r.tag
  | .queued => s.markTriggered r.tag
  | .bound => s
  | .armed => s
  | .onAir => s
  | .clearing => s

/-- A trigger reaches a record: set aside in SHADOW and LISTEN (R180), else displacement and overtaking of a HARD_AT record
(R46) and R44's answer. -/
def State.trigger (s : State) (tag : Nat) : State :=
  match s.find tag with
  | none => s
  | some r =>
    if !r.unstarted then s
    else if !s.isLive then s.setAsideMark r
    else if r.displacesNow then ((s.markWaiting r).displaceAndOvertake r).emit [.answer tag]
    else s.answerTrigger tag

/-! ### Priming complete, predecessors (R43, R47 to R49) -/

/-- A record's deck is primed: the record becomes ARMED and its start condition is judged (R43). -/
def State.recordArmed (s : State) (tag : Nat) : State :=
  match s.find tag with
  | none => s
  | some r =>
    if r.state = .bound then
      let s := s.modRecord tag fun r => { r with state := .armed }
      if s.conditionMet { r with state := .armed } then s.trigger tag else s
    else s

/-- A record's predecessor has reached its segue mark (R47, R48). -/
def State.followSegue (s : State) (tag : Nat) : State :=
  match s.find tag with
  | none => s
  | some r =>
    match r.kind with
    | .afterPrev => s.trigger tag
    | .softAt => if s.startDue r then s.trigger tag else s
    | .followPrev => s
    | .hardAt => s
    | .afterPeer => s
    | .go => s

/-- A record's predecessor has left after having started (R47, R48, R49). -/
def State.followEnd (s : State) (tag : Nat) : State :=
  match s.find tag with
  | none => s
  | some r =>
    match r.kind with
    | .afterPrev => s.trigger tag
    | .followPrev => s.trigger tag
    | .softAt => if s.startDue r then s.trigger tag else s
    | .hardAt => s
    | .afterPeer => s
    | .go => s

/-! ### DROP, GO, CLEAR -/

/-- A deck is asked for a DROP's fade-out while PLAYING. On a FADING deck a DROP has no effect (R54), but for the store-end fade, with
which R71 has a DROP compared by R76: R54 and R71 differ there, and which of them holds is a free value (assumption 36). -/
def Deck.takesDrop (x : Deck) : Bool := x.state == .playing || (x.inStoreEnd && Config.storeEndTakesDrop)

/-- A DROP handed to the running order (R54, R71). -/
def State.takeDrop (s : State) (tag : Nat) : State :=
  match s.find tag with
  | none => s
  | some r =>
    match r.state with
    | .headerWait => s.depart tag ⟨.dropped, .byLoader⟩
    | .queued => s.depart tag ⟨.dropped, .byLoader⟩
    | .bound => s.depart tag ⟨.dropped, .byLoader⟩
    | .armed => s.depart tag ⟨.dropped, .byLoader⟩
    | .onAir =>
      (match r.deck with
        | none => s
        | some d => if (s.deck d).takesDrop then s.requestFade d r.fadeOutLen r.law ⟨.faded, .byLoader⟩ 0 else s)
    | .clearing => s

/-- A GO handed to the running order: the earliest ARMED GO record on the group is triggered, while LIVE (R52, R180). -/
def State.takeGo (s : State) (group : Nat) : State :=
  if s.isLive then
    match s.records.find? (fun r => r.group.val == group && r.kind == .go && r.state == .armed) with
    | none => s
    | some r => s.trigger r.tag
  else s

/-- The running fade-out ends the item within 480 samples (R55). -/
def Deck.endsSoon (x : Deck) : Bool := x.fadeOut.any fun f => decide (f.len ≤ f.pos + 480)

/-- The 480-sample fade of a CLEAR; a fade-out that already ends within those samples is kept (R55). -/
def State.clearFade (s : State) (d : DeckNo) (law : Law) : State :=
  if (s.deck d).endsSoon then s else s.requestFade d 480 law ⟨.faded, .cleared⟩ 0

/-- One record at a CLEAR (R55). -/
def State.clearRecord (s : State) (tag : Nat) : State :=
  match s.find tag with
  | none => s
  | some r =>
    if r.unstarted then s.removeRecord tag ⟨.dropped, .cleared⟩ false
    else if r.state = .onAir then
      let s := s.modRecord tag fun r => { r with state := .clearing }
      (match r.deck with
        | none => s
        | some d => s.clearFade d r.law)
    else s

/-- CLEAR at the running order: every record in list order (R55). -/
def State.clearRecords (s : State) : State := (s.records.map (·.tag)).foldl State.clearRecord s

end Sys2Proof.Machine
end

