-- ==== Sys2Proof/Machine/Mixing.lean ====
section
/-! DEFINITION. The gain and mix unit at work (chapters 5 and 6): levels, the computation of a control period, the frames of a
sample period, the air gate. -/

namespace Sys2Proof.Machine

/-! ### Levels (R86) -/

/-- The group field of a LEVEL names the level it sets: a group, the master (7), or none (R86). -/
def Mix.setLevel (m : Mix) (group : Nat) (l : Level) : Mix :=
  if h : group < 4 then { m with levels := m.levels.set group l }
  else if group = 7 then { m with master := l }
  else m

/-- LEVEL handed to the gain and mix unit (R86). -/
def State.setLevel (s : State) (f : LevelFields) : State :=
  { s with mix := s.mix.setLevel f.group.toNat (readLevel f.level) }

/-- CLEAR at the gain and mix unit: local requests still active are withdrawn (R105). -/
def State.clearRequests (s : State) : State := allDecks.foldl State.withdrawDuck s

/-! ### The computation of a control period (R88 to R102) -/

/-- A depth if a request lies in a domain. -/
def DuckRequest.depthIn (m : Nat) (q : DuckRequest) : Nat := if q.domain = m then min 300 q.depth else 0

/-- The greatest depth of a station's requests in a domain, but for those the test leaves out (R100, R101). -/
def Peer.duckIn (p : Peer) (m : Nat) (skip : DuckRequest → Bool) : Nat :=
  (p.ducks.filter fun q => !skip q).foldl (fun a q => max a (q.depthIn m)) 0

/-- The greatest depth among the active local requests of the other decks in a domain (R101). -/
def State.localDuck (s : State) (d : DeckNo) (m : Nat) : Nat :=
  (allDecks.filter fun e => e != d).foldl (fun a e => max a (match s.mix.requests[e] with
    | none => 0
    | some q => q.depthIn m)) 0

/-- The greatest depth among the peer requests in a domain, the partner's request with the deck's own tag left out (R101). -/
def State.peerDuck (s : State) (m : Nat) (tag : Option Nat) : Nat :=
  allStations.foldl (fun a q => max a ((s.peer q).duckIn m fun r => s.partner == some q && tag == some r.tag)) 0

/-- The duck target of a sounding deck (R101). -/
def State.duckTarget (s : State) (d : DeckNo) (it : Item) : Nat :=
  let m := s.domain it.group
  if it.cls = .advert ∨ m = 0 then 0 else max (s.localDuck d m) (s.peerDuck m (s.deck d).bound)

/-- The step of a domain, 0 for domain 0. -/
def stepOf (steps : Vector Nat 8) (m : Nat) : Nat := if h : 0 < m ∧ m ≤ 8 then steps[m - 1] else 0

/-- The fade a deck holds, as the computation reads it (R89). -/
def Deck.fadeTerm (x : Deck) (it : Item) : Option FadeTerm :=
  match x.fadeOut with
  | some f => some ⟨false, f.pos, f.len, f.law⟩
  | none => x.fadeIn.map fun f => ⟨true, f.pos, f.len, it.law⟩

/-- A deck's new gain word at its present duck value (R89 to R94). -/
def State.deckWordOf (s : State) (d : DeckNo) (it : Item) : Nat :=
  newGainWord it.trim (if it.group = 0 then none else some s.mix.master) s.mix.levels[it.group] (s.deck d).duckValue
    ((s.deck d).fadeTerm it)

/-- One deck's computation: the duck value is stepped from where it stood before this control period, then the new gain word
computed (R88, R102). -/
def State.computeDeck (s : State) (d : DeckNo) : State :=
  let x := s.deck d
  match x.sounding, x.item with
  | true, some it =>
    let m := s.domain it.group
    let s := s.setDeck d
      { x with
        duckValue := stepDuck s.mix.duckBase[d] (s.duckTarget d it) (stepOf s.cfg.attack m) (stepOf s.cfg.release m) }
    { s with mix := { s.mix with newWord := s.mix.newWord.set d (s.deckWordOf d it) } }
  | _, _ => s

/-- The sample of the control period in progress, 0 to 47 (R3, R95). -/
def State.controlIndex (s : State) : Nat := (s.period - 1) % 48

/-- The computation of this control period is still to be made (R88). -/
def State.controlDue (s : State) : Bool := s.controlIndex == 0 && !s.controlDone

/-- The duck values are kept as they stand before the computation. -/
def State.saveDucks (s : State) : State :=
  { s with mix := { s.mix with
      duckBase := ⟨#[(s.deck 0).duckValue, (s.deck 1).duckValue, (s.deck 2).duckValue, (s.deck 3).duckValue], rfl⟩ } }

/-- The computation for every deck. -/
def State.computeAll (s : State) : State := allDecks.foldl State.computeDeck s

/-- CONTROL_PERIOD (R88). -/
def State.controlPeriodAt (s : State) : State :=
  if s.controlDue then { s.saveDucks.computeAll with controlDone := true } else s

/-- The close of the first sample period of a control period: what was taken in it after CONTROL_PERIOD is already in effect for its
one computation (R88, R96), which is therefore made from the inputs as they stand now (assumption 38). -/
def State.settleControl (s : State) : State := if s.controlIndex = 0 ∧ s.controlDone = true then s.computeAll else s

/-! ### The frames of a sample period (R67, R95 to R97, R106 to R110) -/

/-- The audio of the FILLED slot that holds a block. -/
def Deck.filledBlock (x : Deck) (b : Nat) : Option (List Byte) :=
  x.ring.toList.findSome? fun sl => match sl with
    | .filled k a => if k = b then some a else none
    | .free => none
    | .inFlight _ => none

/-- The frame at the play position, absent when its block is not FILLED (R67). -/
def Deck.frame (x : Deck) (it : Item) : Option StereoFrame :=
  (x.filledBlock (x.p / 1024)).map fun a => blockFrame it.format a (x.p % 1024)

def silence : StereoFrame := ⟨0, 0⟩

/-- A sounding deck's frame, zero where its block is missing (R67). -/
def Deck.handed (x : Deck) (it : Item) : StereoFrame := (x.frame it).getD silence

/-- The ramped gain of a deck in this sample period (R95). -/
def State.rampOf (s : State) (d : DeckNo) : Int := rampGain s.mix.lastWord[d] s.mix.newWord[d] s.controlIndex

/-- A deck's output sample on the group asked for: zero for a deck that does not sound or is on another group (R97, R106). -/
def State.outputOn (s : State) (g : Group) (d : DeckNo) : StereoFrame :=
  let x := s.deck d
  match x.sounding, x.item with
  | true, some it =>
    if it.group = g then
      let f := x.handed it
      let w := s.rampOf d
      ⟨outputSample f.left w, outputSample f.right w⟩
    else silence
  | _, _ => silence

/-- The exact sums of a group (R106). -/
def State.groupSum (s : State) (g : Group) : StereoFrame :=
  allDecks.foldl (fun a d => let y := s.outputOn g d; ⟨a.left + y.left, a.right + y.right⟩) silence

/-- The mixed sample of a pair of sums (R107). -/
def StereoFrame.saturated (f : StereoFrame) : StereoFrame := ⟨saturate f.left, saturate f.right⟩

/-- The frame sent through the gate at weight `w` (R108). -/
def StereoFrame.gated (f : StereoFrame) (w : Nat) : StereoFrame := ⟨gateSample f.left w, gateSample f.right w⟩

/-- A deck of the group is PLAYING or FADING. -/
def State.groupSounds (s : State) (g : Group) : Bool :=
  allDecks.any fun d => (s.deck d).sounding && (match (s.deck d).item with | some it => it.group == g | none => false)

/-- The gate's movement in a sample period (R109). Reaching 960 or 0 is reported by GATE_OPEN or GATE_CLOSED. -/
def Gate.move (g : Gate) : Gate :=
  match g.state with
  | .opening => { g with weight := min 960 (g.weight + 1) }
  | .closing => { g with weight := g.weight - 2 }
  | .opened => g
  | .closed => g

/-! ### Gate requests and reports (R109) -/

/-- An open request: from CLOSED or CLOSING the gate opens from its present weight (R109). -/
def Gate.openRequest (g : Gate) : Gate :=
  match g.state with
  | .closed => { g with state := .opening }
  | .closing => { g with state := .opening }
  | .opening => g
  | .opened => g

/-- A close request: from OPEN or OPENING the gate closes from its present weight, which it leaves in ⌈w / 2⌉ sample periods: from a
weight of 0, in none (R109). -/
def Gate.closeRequest (g : Gate) : Gate :=
  match g.state with
  | .opened => { g with state := .closing }
  | .opening => { g with state := if g.weight = 0 then .closed else .closing }
  | .closing => g
  | .closed => g

def State.modGate (s : State) (f : Gate → Gate) : State := { s with mix := { s.mix with gate := f s.mix.gate } }

/-- The gate has reached weight 960 in its opening (R109). -/
def Gate.openDone (g : Gate) : Bool := g.state == .opening && decide (960 ≤ g.weight)

/-- The gate has reached weight 0 in its closing (R109). -/
def Gate.closeDone (g : Gate) : Bool := g.state == .closing && g.weight == 0

/-- GATE_OPEN: the gate is OPEN (R109). -/
def State.gateOpenAt (s : State) : State :=
  if s.mix.gate.openDone then s.modGate fun g => { g with state := .opened } else s

/-- GATE_CLOSED: the gate is CLOSED and reports it to the pair controller; the sample period in which weight 0 was used is the
one just mixed (R109, R188). -/
def State.gateClosedAt (s : State) : State :=
  if s.mix.gate.closeDone then
    let s := s.modGate fun g => { g with state := .closed }
    { s with pair := { s.pair with closedAt := some (s.period - 1) } }
  else s

end Sys2Proof.Machine
end

