-- ==== Sys2Proof/Machine/Timebase.lean ====
section
/-! DEFINITION. The Timebase (chapter 1): the reference input, the clock states, slews, steps and trim. -/

namespace Sys2Proof.Machine

/-! ### Pulses, windows and rejection (R4, R5) -/

/-- A reference event is rejected: the count rises by one and stays at 255 (R5). -/
def Clock.reject (c : Clock) : Clock := { c with rejected := min 255 (c.rejected + 1) }

/-- The pulse latches own air time and day number (R4). -/
def Clock.latch (c : Clock) : Clock := { c with pulse := some ⟨c.airTime, c.day⟩ }

/-- TIME_PULSE: an earlier pulse still waiting for its label is rejected; the new pulse is latched and the label window opens for
4,800 sample periods (R4, R5). -/
def State.timePulseAt (s : State) : State :=
  ({ s with clock := (if s.clock.pulse.isSome then s.clock.reject else s.clock).latch } : State).setInterval .labelWindow 4800

/-- The label window closes and the pending pulse is cleared (R4). -/
def State.closeWindow (s : State) : State :=
  ({ s with clock := { s.clock with pulse := none } } : State).cancelInterval .labelWindow

/-- LABEL_WINDOW_EXPIRY: the pulse is rejected and the window closes (R5). -/
def State.windowExpired (s : State) : State :=
  if s.clock.pulse.isSome then ({ s with clock := s.clock.reject } : State).closeWindow else s.closeWindow

/-! ### Error, expected day, drift (R6) -/

/-- The error of a label and its day offset k: a − r folded into −2,073,600,000 to 2,073,599,999 (R6). -/
def labelError (a r : Nat) : Int × Int :=
  let d : Int := (a : Int) - r
  if 2073600000 ≤ d then (d - 4147200000, 1)
  else if d < -2073600000 then (d + 4147200000, -1)
  else (d, 0)

/-- The drift is defined: the previous valid label came no more than 96,000 sample periods earlier and was not handled by a
step (R6). -/
def Clock.driftDefined (c : Clock) (period : Nat) : Bool :=
  match c.lastLabel with
  | none => false
  | some l => decide (period ≤ l.period + 96000) && !l.byStep

/-! ### Slew, step, trim (R10 to R12) -/

/-- A slew by `e` replaces the remainder; `e` = 0 ends a slew and clears OFFSET (R10). Of a run in progress when another slew
replaces the one it counts for, the manual says nothing (assumption 5). -/
def Clock.slew (c : Clock) (e : Int) : Clock :=
  if e = 0 then { c with remainder := 0, slewRun := 0, offset := false }
  else { c with remainder := e, slewRun := if c.remainder = 0 then 0 else Config.slewRunAfterReplace c.slewRun % 1000 }

/-- The trim is lowered by 500 × d when d is defined and at most 48 in size, and held within ±4,800 (R12). -/
def Clock.correctTrim (c : Clock) (d : Option Int) : Clock :=
  match d with
  | none => c
  | some d => if d.natAbs ≤ 48 then { c with trim := clampInt (-4800) 4800 (c.trim - 500 * d) } else c

/-- A day number changed by a difference, modulo 65,536. -/
def shiftDay (day : Nat) (d : Int) : Nat := (((day : Int) + d) % 65536).toNat

/-- A step: air time becomes (now − e) mod Dlen, the day the label's day or the next, the remainder 0, OFFSET clear (R11). -/
def Clock.stepBy (c : Clock) (e : Int) (labelDay r : Nat) : Clock :=
  let t := (((c.airTime : Int) - e) % 4147200000).toNat
  { c with airTime := t, day := (labelDay + if t < r then 1 else 0) % 65536, remainder := 0, slewRun := 0, offset := false }

/-- What a valid label's handling needs (R6). -/
structure Label where
  error    : Int
  drift    : Option Int
  day      : Nat
  expected : Int
  ref      : Nat
  deriving DecidableEq, Repr

/-- The label is handled by a slew; a wrong day is put right by the difference (R6, R10, R12). -/
def Clock.slewLabel (c : Clock) (l : Label) : Clock :=
  let c := (c.slew l.error).correctTrim l.drift
  { c with day := shiftDay c.day ((l.day : Int) - l.expected) }

/-- A valid label in ACQUIRE by the size of its error (R8). The second part says whether it was a step. -/
def Clock.acquireLabel (c : Clock) (l : Label) (sounding : Bool) : Clock × Bool :=
  let n := l.error.natAbs
  if n ≤ 2 then
    let c := c.slewLabel l
    let g := min 3 (c.good + 1)
    ({ c with good := g, state := if g = 3 then .locked else c.state }, false)
  else if n ≤ 480 then ({ c.slewLabel l with good := 0 }, false)
  else if sounding then ({ c.slewLabel l with good := 0, offset := true }, false)
  else ({ c.stepBy l.error l.day l.ref with good := 0 }, true)

/-- The clock returns to ACQUIRE with the good count at 0. -/
def Clock.toAcquire (c : Clock) : Clock := { c with state := .acquire, good := 0 }

/-- A valid label by the clock state (R7 to R9). -/
def Clock.handleLabel (c : Clock) (l : Label) (sounding : Bool) : Clock × Bool :=
  match c.state with
  | .free => if sounding then c.toAcquire.acquireLabel l true else (c.toAcquire.stepBy l.error l.day l.ref, true)
  | .acquire => c.acquireLabel l sounding
  | .locked => if l.error.natAbs ≤ 480 then (c.slewLabel l, false) else c.toAcquire.acquireLabel l sounding
  | .holdover => c.toAcquire.acquireLabel l sounding

/-- The measures of a label against the pulse it belongs to (R6). -/
def Clock.measure (c : Clock) (p : Pulse) (period : Nat) (day : BitVec 16) (second : Nat) : Label :=
  let (e, k) := labelError p.airTime (second * 48000)
  { error := e, drift := if c.driftDefined period then some (e - c.remainder) else none, day := day.toNat
    expected := ((p.day : Int) + k) % 65536, ref := second * 48000 }

/-- A completed run of 1,000 sample periods moves the remainder one toward 0; at 0 the slew ends and OFFSET clears (R10). -/
def Clock.completeRun (c : Clock) : Clock :=
  let r := if 0 < c.remainder then c.remainder - 1 else c.remainder + 1
  { c with remainder := r, slewRun := 0, offset := c.offset && decide (r ≠ 0) }

/-- A run of the slew is complete (R10). -/
def Clock.runDone (c : Clock) : Bool := decide (c.remainder ≠ 0) && decide (1000 ≤ c.slewRun)

/-- SLEW_RUN (R10). -/
def State.slewRunAt (s : State) : State :=
  if s.clock.runDone then { s with clock := s.clock.completeRun } else s

/-- A valid label is handled, recorded as the last valid label, and the label gap is watched afresh; a step re-tests every
air-time expiry (R4, R9, R15). A run of the slew that is complete has lowered the remainder before (R10). -/
def State.validLabel (s : State) (p : Pulse) (day : BitVec 16) (second : Nat) : State :=
  let s := s.slewRunAt.closeWindow
  let (c, stepped) := s.clock.handleLabel (s.clock.measure p s.period day second) s.anySounding
  let s := ({ s with clock := { c with lastLabel := some ⟨s.period, stepped⟩ } } : State).setInterval .labelGap 144000
  if stepped then s.emit [.fireDue] else s

/-- TIME_LABEL (R4, R5). -/
def State.timeLabelAt (s : State) (day : BitVec 16) (second : Nat) : State :=
  match s.clock.pulse with
  | none => { s with clock := s.clock.reject }
  | some p =>
    if 86399 < second then ({ s with clock := s.clock.reject } : State).closeWindow else s.validLabel p day second

/-- LABEL_GAP: the good count becomes 0 in ACQUIRE; LOCKED becomes HOLDOVER (R8, R9). -/
def State.labelGapAt (s : State) : State :=
  let s := s.cancelInterval .labelGap
  match s.clock.state with
  | .acquire => { s with clock := { s.clock with good := 0 } }
  | .locked => { s with clock := { s.clock with state := .holdover } }
  | .free => s
  | .holdover => s

/-- The end of a sample period at the Timebase: air time advances by one, wrapping at Dlen into the day number; the run of a
slew counts one period, the one in which the label began the slew among them: R10 does not say whether that one counts
(R1, R10; assumption 5). -/
def Clock.advance (c : Clock) : Clock :=
  { c with
    airTime := if c.airTime + 1 < dayLength then c.airTime + 1 else 0
    day := if c.airTime + 1 < dayLength then c.day else (c.day + 1) % 65536
    slewRun := if c.remainder = 0 then 0 else c.slewRun + 1 }

end Sys2Proof.Machine
end

