-- ==== Sys2Proof/Machine/Monitor.lean ====
section
/-! DEFINITION. The output monitor (chapter 6): window records, dead air, overload, the skip-silent timers. -/

namespace Sys2Proof.Machine

/-! ### The window record (R113) -/

/-- The larger absolute value of a frame's channels. -/
def StereoFrame.peak (f : StereoFrame) : Nat := max f.left.natAbs f.right.natAbs

/-- What one sample period adds to a group's window record (R113). -/
def Window.record (w : Window) (sent : StereoFrame) (sounds saturates live : Bool) : Window :=
  { peak := max w.peak sent.peak, sounding := w.sounding || sounds, overload := w.overload || saturates
    wholeLive := w.wholeLive && live }

/-! ### Judging a window (R114 to R117) -/

/-- A window is silent (R114). -/
def Window.silent (w : Window) (threshold : Nat) : Bool := decide (w.peak < threshold) || !w.sounding

/-- Silence time, monitor state and latched flag after a judged window; the FAULT it hands, set or clear, if any (R115, R116). -/
def GroupMonitor.judgeSilence (g : GroupMonitor) (count : Nat) (silent : Bool) : GroupMonitor × Option Bool :=
  if silent then
    match g.state with
    | .deadAir => (g, none)
    | .sounding =>
      if count ≤ 1 then ({ g with silence := 1, state := .deadAir, deadAirFlag := true }, some true)
      else ({ g with silence := 1, state := .silent }, none)
    | .silent =>
      if count ≤ g.silence + 1 then ({ g with silence := g.silence + 1, state := .deadAir, deadAirFlag := true }, some true)
      else ({ g with silence := g.silence + 1 }, none)
    | .suspended => (g, none)
  else
    match g.state with
    | .deadAir => ({ g with silence := 0, state := .sounding }, some false)
    | .sounding => ({ g with silence := 0 }, none)
    | .silent => ({ g with silence := 0, state := .sounding }, none)
    | .suspended => (g, none)

/-- Overload run and latched flag after a judged window; the FAULT it hands (R117). -/
def GroupMonitor.judgeOverload (g : GroupMonitor) (mark : Bool) : GroupMonitor × Option Bool :=
  if mark then
    if g.overloadRun = 2 then ({ g with overloadRun := 3, overloadFlag := true }, some true)
    else ({ g with overloadRun := min 3 (g.overloadRun + 1) }, none)
  else if g.overloadRun = 3 then ({ g with overloadRun := 0 }, some false)
  else ({ g with overloadRun := 0 }, none)

def State.setGroup (s : State) (a : Fin 3) (g : GroupMonitor) : State :=
  { s with monitor := { s.monitor with groups := s.monitor.groups.set a g } }

/-- A FAULT is handed while LIVE, when there is one (R119). -/
def State.handFault (s : State) (group kind : Nat) : Option Bool → State
  | none => s
  | some b => s.handLive (faultNotice group kind b)

/-- A group's window is judged if the engine was LIVE in all of it, then its record is cleared (R113). -/
def State.judgeGroup (s : State) (a : Fin 3) : State :=
  let g := s.monitor.groups[a]
  if g.window.wholeLive then
    let r1 := g.judgeSilence (s.cfg.deadAir * 100) (g.window.silent s.cfg.threshold)
    let r2 := r1.1.judgeOverload g.window.overload
    ((s.setGroup a { r2.1 with window := {} }).handFault (groupOfAir a) 1 r1.2).handFault (groupOfAir a) 2 r2.2
  else s.setGroup a { g with window := {} }

/-- MONITOR_WINDOW: the three air groups are judged in the order A, B, C; the STORE FAULTs of the window's last sample period come
after theirs (R113, R119; assumption 41). The STATUS of a beacon that falls in the same sample period has been
formed before (assumption 46). -/
def State.monitorWindowAt (s : State) : State :=
  if s.monitor.full then
    let s := (allAir.foldl State.judgeGroup s).releaseStoreFaults fun n => decide (n < s.period)
    { s with monitor := { s.monitor with full := false } }
  else s

/-! ### Suspension and CLEAR (R121, R122) -/

/-- The skip-silent timers become 0 (R82, R84). -/
def State.clearTimers (s : State) : State := { s with monitor := { s.monitor with timers := Vector.replicate 4 0 } }

/-- The window in progress is not judged: its whole-LIVE mark is cleared, in a new record where a complete window is unjudged (R121). -/
def GroupMonitor.spoilWindow (g : GroupMonitor) (full : Bool) : GroupMonitor :=
  { g with window := { (if full then {} else g.window) with wholeLive := false } }

/-- The monitor's answer to the role state becoming LIVE: the counts, and the skip-silent timers (R84), begin at 0, and the window in
progress is not judged, even in its first sample period (R121). A complete one that awaits its judgement was not LIVE throughout, and its
record is cleared unjudged (R113). -/
def State.monitorLive (s : State) : State :=
  let s' := s.modGroups fun g => { g with state := .sounding, silence := 0, overloadRun := 0 }.spoilWindow s.monitor.full
  { s' with monitor := { s'.monitor with full := false } }.clearTimers

/-- The monitor's answer to the role state leaving LIVE; the skip-silent timers are held at 0 from now on (R84, R121). -/
def State.monitorSuspend (s : State) : State :=
  (s.modGroups fun g => { g with state := .suspended, silence := 0, overloadRun := 0 }.spoilWindow false).clearTimers

/-- The FAULT clears of a CLEAR for one group (R122). -/
def State.clearGroupFaults (s : State) (a : Fin 3) : State :=
  let g := s.monitor.groups[a]
  let s := if g.state = .deadAir then s.handLive (faultNotice (groupOfAir a) 1 false) else s
  if g.overloadRun = 3 then s.handLive (faultNotice (groupOfAir a) 2 false) else s

/-- CLEAR at the output monitor (R122). -/
def State.clearMonitor (s : State) : State :=
  let live := s.isLive
  let s := allAir.foldl State.clearGroupFaults s
  (s.clearLatched.modGroups fun g =>
    { g with silence := 0, overloadRun := 0, state := if live then .sounding else .suspended }).clearTimers

/-! ### The skip-silent timers (R82) -/

/-- The frame handed over is below the silence threshold on both channels (R82). -/
def StereoFrame.below (f : StereoFrame) (threshold : Nat) : Bool :=
  decide (f.left.natAbs < threshold) && decide (f.right.natAbs < threshold)

/-- A deck's skip-silent timer after this sample period (R82). -/
def State.timerAfter (s : State) (d : DeckNo) : Nat :=
  let x := s.deck d
  match x.item with
  | none => 0
  | some it =>
    if s.isLive && x.state == .playing && x.fadeIn.isNone && (x.handed it).below s.cfg.threshold then
      min (s.cfg.skipSilent * 48000) (s.monitor.timers[d] + 1)
    else 0

/-! ### One sample period -/

/-- The UNDERRUN flags of records whose frame's block is missing (R67). -/
def State.markUnderrun (s : State) (d : DeckNo) : State :=
  let x := s.deck d
  match x.sounding, x.item, x.bound with
  | true, some it, some tag =>
    if (x.frame it).isNone then s.modRecord tag fun r => { r with flags := { r.flags with underrun := true } } else s
  | _, _, _ => s

/-- The four decks' values of the skip-silent timers after this sample period. -/
def State.stepTimers (s : State) : State :=
  { s with monitor := { s.monitor with timers := ⟨#[s.timerAfter 0, s.timerAfter 1, s.timerAfter 2, s.timerAfter 3], rfl⟩ } }

/-- The group's window record takes this sample period's sent frame (R113). -/
def State.recordWindow (s : State) (a : Fin 3) (g : Group) (sent : StereoFrame) : State :=
  let m := s.monitor.groups[a]
  let sum := s.groupSum g
  s.setGroup a { m with window := m.window.record sent (s.groupSounds g) (decide (sum.saturated ≠ sum)) s.isLive }

/-- The mix of one sample period: the gate moves, the four frames leave, the windows record them (R106 to R113). -/
def State.mixOut (s : State) : State :=
  let s := s.modGate Gate.move
  let w := s.mix.gate.weight
  let a := (s.groupSum 1).saturated.gated w
  let b := (s.groupSum 2).saturated.gated w
  let c := (s.groupSum 3).saturated.gated w
  let o : Outputs := { airA := a, airB := b, airC := c, audition := (s.groupSum 0).saturated }
  { ((s.recordWindow 0 1 a).recordWindow 1 2 b).recordWindow 2 3 c with out := some o }

/-- The end of a sample period at a deck: position, fades and aired count advance (R66, R73, R74). -/
def Deck.advance (x : Deck) (live : Bool) : Deck :=
  if x.sounding then
    { x with
      p := x.p + 1
      fadeIn := x.fadeIn.map fun f => { f with pos := f.pos + 1 }
      fadeOut := x.fadeOut.map fun f => { f with pos := f.pos + 1 }
      aired := if live then x.aired + 1 else x.aired }
  else x

def State.advanceDecks (s : State) : State :=
  { s with decks := ⟨#[(s.deck 0).advance s.isLive, (s.deck 1).advance s.isLive, (s.deck 2).advance s.isLive,
      (s.deck 3).advance s.isLive], rfl⟩ }

/-- The end of a control period: the new gain words become the last words (R88). -/
def State.endControl (s : State) : State :=
  if s.controlIndex = 47 then { s with mix := { s.mix with lastWord := s.mix.newWord }, controlDone := false } else s

/-- At the close of a sample period the STORE FAULTs that arose in it are handed; those of the last sample period of a window wait for
the window's judgement (R119; assumption 41). -/
def State.closeFaults (s : State) : State :=
  if s.monitor.full || decide (s.period % 480 = 0) then s else s.releaseStoreFaults fun _ => true

/-- What the sample period itself does, when every event that falls in it has been taken (R1). -/
def State.tick (s : State) : State :=
  let s := (allDecks.foldl State.markUnderrun s).mixOut.stepTimers.advanceDecks.endControl
  { s with
    clock := s.clock.advance, monitor := { s.monitor with full := s.monitor.full || decide (s.period % 480 = 0) }
    period := s.period + 1 }

end Sys2Proof.Machine
end

