-- ==== Sys2Proof/Machine/Pair.lean ====
section
/-! DEFINITION. The pair controller (chapter 10): mirroring, takeover and yield. -/

namespace Sys2Proof.Machine

/-! ### Following the partner (R181, R182) -/

/-- A record on a deck follows the partner's START. A HARD_AT record has its displacement and overtaking first, and is then dealt with by
the state that they leave it in, since they can take its deck (R181). -/
def State.startFollowed (s : State) (r : CueRecord) (start : Option Nat) (cold : Bool) : State :=
  if r.displacesNow then (s.displaceAndOvertake r).emit [.partnerStart r.tag start] else s.startRecord r.tag start cold false

/-- The partner's START for a tag while SHADOW or LISTEN (R181). -/
def State.followStart (s : State) (tag : Nat) (start : Option Nat) : State :=
  if s.isLive then s
  else match s.find tag with
    | none => s
    | some r =>
      match r.state with
      | .armed => s.startFollowed r start false
      | .bound => s.startFollowed r start true
      | .headerWait => s.markShadow tag start
      | .queued => s.markShadow tag start
      | .onAir => s
      | .clearing => s

/-- The partner's END for a tag while SHADOW or LISTEN (R182, R81). -/
def State.followPartnerEnd (s : State) (tag : Nat) : State :=
  if s.isLive then s
  else match s.find tag with
    | none => s
    | some r =>
      if r.unstarted then s.depart tag ⟨.shadow, .none⟩
      else if r.state = .onAir ∧ r.airedLive = true then s
      else match r.deck with
        | none => s
        | some d => if (s.deck d).sounding then s.endItem d ⟨.shadow, .none⟩ else s

/-! ### Taking the air (R183, R185, R186) -/

/-- A DUCK for each active local request, in increasing deck number, with its depth or as a withdrawal (R104). -/
def State.announceDucks (s : State) (withdraw : Bool) : State :=
  allDecks.foldl (fun s d => match s.mix.requests[d] with
    | none => s
    | some q => s.hand (duckNotice q (if withdraw then 0 else q.depth))) s

/-- TAKEN is handed and the TAKEN window opened or moved (R185, R187, R188). -/
def State.announceTaken (s : State) : State := (s.hand .taken).setInterval .takenWindow 48000

/-- A sounding deck announces its item with its original start; its record gets TAKEN_MID and the aired-while-live flag (R185). -/
def State.announceItem (s : State) (d : DeckNo) : State :=
  let x := s.deck d
  match x.sounding, x.bound, x.item, x.actualStart with
  | true, some tag, some it, some start =>
    (match s.find tag with
      | none => s
      | some r => (s.hand (startNotice r x it start)).modRecord tag fun r =>
          { r with airedLive := true, flags := { r.flags with takenMid := true } })
  | _, _, _, _ => s

/-- The set-aside marks are answered: each unstarted record with a mark is triggered, in list order, and the marks are
cleared (R186). -/
def State.answerSetAside (s : State) : State :=
  let tags := (s.records.filter fun r => r.unstarted && r.setAside).map (·.tag)
  ({ s with records := s.records.map fun r => { r with setAside := false } } : State).emit (tags.map .trigger)

/-- The engine takes the air: the four steps of R185. -/
def State.takeAir (s : State) : State :=
  let s := { s with pair := { role := .live, yielding := false, closedAt := none } }
  let s := (s.cancelInterval .listen).cancelInterval .absentWatch
  let s := (s.modGate Gate.openRequest).monitorLive
  let s := (s.announceDucks false).announceTaken
  (allDecks.foldl State.announceItem s).answerSetAside

/-! ### Yield (R187, R188) -/

/-- The engine yields: YIELDING, and a close request to the gate, which answers in the present sample period when it is CLOSED, or
OPENING from a weight of 0 that has not yet moved (R109, R188). -/
def State.yield (s : State) : State :=
  { s with
    pair := { s.pair with
      yielding := true, closedAt := if s.mix.gate.closeRequest.state = .closed then some s.period else none }
    mix := { s.mix with gate := s.mix.gate.closeRequest } }

/-- The partner's loss stops a yield: the gate opens from its present weight, TAKEN is handed, the window is moved (R188). -/
def State.stopYield (s : State) : State :=
  ({ s with pair := { s.pair with yielding := false, closedAt := none } } : State).modGate Gate.openRequest |>.announceTaken

/-- The closed report was made in an earlier sample period (R188). -/
def State.yieldDone (s : State) : Bool :=
  s.pair.yielding && (match s.pair.closedAt with | some n => decide (n < s.period) | none => false)

/-- The sounding records get YIELDED_MID (R188). -/
def State.markYielded (s : State) : State :=
  { s with records := s.records.map fun r =>
      if r.sounding then { r with flags := { r.flags with yieldedMid := true } } else r }

/-- YIELD_TO_SHADOW: in the sample period after the closed report the role state becomes SHADOW: the gate is held CLOSED at
weight 0, the monitor suspended, local requests withdrawn on the bus, YIELDED_MID set (R104, R108, R121, R188). A window that was
completed LIVE and still awaits its judgement is judged first (R113, R121), and the STORE FAULTs that arose while LIVE are handed
(R119; assumption 41). -/
def State.yieldToShadowAt (s : State) : State :=
  if s.yieldDone then
    let s := s.monitorWindowAt.releaseStoreFaults fun _ => true
    let s := { s with
      pair := { role := .shadow, yielding := false, closedAt := none }
      mix := { s.mix with gate := { state := .closed, weight := 0 } } }
    (s.monitorSuspend.announceDucks true).markYielded
  else s

/-! ### What the peer table reports of the partner (R178, R184, R187) -/

/-- A MAIN in LISTEN hears that the partner is LIVE (R178). -/
def State.partnerIsLive (s : State) : State :=
  if s.pair.role = .listen then
    ({ s with pair := { s.pair with role := .shadow } } : State).cancelInterval .listen
  else s

/-- The partner's TAKEN (R178, R187). -/
def State.partnerTaken (s : State) (q : Station) : State :=
  if s.pair.role = .live then
    if s.pair.yielding then s
    else if s.hasInterval .takenWindow && decide (s.ownStation.val < q.val) then s.announceTaken
    else s.yield
  else s.partnerIsLive

/-- The partner has dead air on an air group (R184). -/
def State.partnerDeadAir (s : State) : State := if s.pair.role = .shadow then s.takeAir else s

/-- The partner has become LOST (R184, R188). -/
def State.partnerLost (s : State) : State :=
  match s.pair.role with
  | .shadow => s.takeAir
  | .live => if s.pair.yielding then s.stopYield else s
  | .listen => s

/-- A TAKE for self (R178, R184). -/
def State.takeForSelf (s : State) : State :=
  match s.pair.role with
  | .shadow => s.takeAir
  | .listen => s.takeAir
  | .live => s

/-! ### Expiries (R177, R178) -/

/-- The listen expiry fires with the role state LISTEN (R178). -/
def State.listenFired (s : State) : State :=
  let s := s.cancelInterval .listen
  if s.pair.role = .listen then s.takeAir else s

/-- The partner is ABSENT, or its role state is other than LIVE (R177). -/
def State.partnerNotLive (s : State) : Bool :=
  match s.partner with
  | none => false
  | some q => (s.peer q).presence == .absent || (s.peer q).role != some .live

/-- The absent watch fires (R177, R184). -/
def State.absentWatchFired (s : State) : State :=
  let s := s.cancelInterval .absentWatch
  if s.pair.role = .shadow && s.partnerNotLive then s.takeAir else s

end Sys2Proof.Machine
end

