-- ==== Sys2Proof/Machine/Peers.lean ====
section
/-! DEFINITION. Receiving (chapter 8, 8.5), the peer table (chapter 9) and peer coupling. -/

namespace Sys2Proof.Machine

/-! ### Hearing a frame (R153, R154, R160) -/

/-- The line state after a frame has been read, sent or abandoned: WAIT_IDLE with the count at 0 (R142). -/
def State.toWaitIdle (s : State) : State := s.modBus fun b => { b with line := .waitIdle, recessive := 0 }

/-- A station was heard: PRESENT, last heard now, the loss expiry set or moved (R160). -/
def State.presence (s : State) (q : Station) : State :=
  (s.modPeer q fun p => { p with presence := .present, lastHeard := some s.now }).setInterval (.peerLoss q) 48000

/-- A well-formed frame has been read: the engine's own number sets DUPLICATE_STATION (R154), another station is reported
present and its frame handed on (R153, R155). -/
def State.takeFrame (s : State) (h : Header) (act : State → State) : State :=
  if senderOf h = s.ownStation then s.toWaitIdle.modBus fun b => { b with duplicate := true }
  else act (s.toWaitIdle.presence (senderOf h))

/-- A frame on the line by the line state (R142): read from an IDLE line, or while RECEIVING; in WAIT_IDLE its bits only keep the
count at 0; while the engine drives the line itself there is no other frame to read (assumption 22). -/
def State.heard (s : State) (h : Header) (act : State → State) : State :=
  match s.bus.line with
  | .idle => s.takeFrame h act
  | .receiving => s.takeFrame h act
  | .waitIdle => s.toWaitIdle
  | .sending => s
  | .flagging => s

/-- An addressed notice is for self (R156). -/
def State.forSelf (s : State) (h : Header) : Bool := h.target.toNat == s.ownStation.val

/-- An addressed notice is for the partner (R156). -/
def State.forPartner (s : State) (h : Header) : Bool :=
  match s.partner with
  | none => false
  | some q => h.target.toNat == q.val

/-- The sender stands in the loader mask (R157). -/
def State.masked (s : State) (h : Header) : Bool := s.cfg.mask.getLsbD (senderOf h).val

/-- An addressed notice: ignored unless for self or for partner, FOREIGN when its sender is outside the mask, else handed to its
owners (R156, R157). -/
def State.addressed (s : State) (h : Header) (act : State → State) : State :=
  if s.forSelf h || s.forPartner h then
    if s.masked h then act s else s.modBus fun b => { b with foreign := true }
  else s

/-! ### The table's entries (R162 to R167) -/

/-- The newest seven of a list of at most eight: room for one more. -/
def keepSeven {α : Type} (l : List α) : List α := l.drop (l.length - 7)

/-- An entry's items with a new one as the newest, the oldest removed when there are 8 (R162, R163). -/
def Peer.addItem (p : Peer) (i : Announced) : Peer := { p with items := keepSeven p.items ++ [i] }

/-- START at the table (R162). -/
def Peer.start (p : Peer) (f : StartFields) (stamp : Nat) : Peer :=
  let tag := f.tag.toNat
  let p := if p.items.any (fun i => i.tag == tag) then
      { p with items := p.items.map fun i =>
          if i.tag = tag then
            { i with group := f.group.toNat, start := readTime f.start, segue := readTime f.segue, finish := readTime f.finish }
          else i }
    else p.addItem ⟨tag, f.group.toNat, readTime f.start, readTime f.segue, readTime f.finish, false, none, stamp⟩
  { p with ended := p.ended.filter fun t => t != tag }

/-- SEGUE at the table (R163). -/
def Peer.segue (p : Peer) (f : SegueFields) (stamp : Nat) : Peer :=
  let tag := f.tag.toNat
  if p.items.any (fun i => i.tag == tag) then
    { p with items := p.items.map fun i =>
        if i.tag = tag then { i with segued := true, segueTime := readTime f.time } else i }
  else p.addItem ⟨tag, f.group.toNat, none, none, none, true, readTime f.time, stamp⟩

/-- END at the table (R164). -/
def Peer.finish (p : Peer) (tag : Nat) : Peer :=
  { p with
    items := p.items.filter fun i => i.tag != tag
    ended := if p.ended.contains tag then p.ended else keepSeven p.ended ++ [tag] }

/-- DUCK at the table (R165). -/
def Peer.duck (p : Peer) (f : DuckFields) : Peer :=
  let tag := f.tag.toNat
  let others := p.ducks.filter fun q => q.tag != tag
  if f.depth.toNat = 0 then { p with ducks := others }
  else { p with ducks := keepSeven others ++ [⟨f.domain.toNat, f.depth.toNat, tag⟩] }

/-- The flag that a FAULT kind names, set or cleared (R166). -/
def PeerFaults.put (x : PeerFaults) (kind : Nat) (b : Bool) : PeerFaults :=
  match kind with
  | 1 => { x with deadAir := b }
  | 2 => { x with overload := b }
  | 3 => { x with store := b }
  | _ => x

/-- A FAULT names a group from 0 to 3 and a kind of 13.2 (R166). -/
def faultDefined (f : FaultFields) : Bool := decide (f.group.toNat < 4) && decide (1 ≤ f.kind.toNat) && decide (f.kind.toNat ≤ 3)

/-- FAULT at the table (R166, R202). -/
def Peer.fault (p : Peer) (f : FaultFields) : Peer :=
  if h : f.group.toNat < 4 then
    { p with faults := p.faults.set f.group.toNat (p.faults[f.group.toNat].put f.kind.toNat (f.set != 0)) }
  else p

/-- The fault flags of a group brought into line with a STATUS: group 0 has no monitor, so only its STORE flag can move (R167). -/
def alignFaults (x : PeerFaults) (f : StatusFields) (a : Option (Fin 3)) : PeerFaults :=
  match a with
  | none => { x with store := x.store && statusStore f }
  | some a => { deadAir := statusDeadAir f a, overload := x.overload && statusOverload f a, store := x.store && statusStore f }

/-- STATUS at the table (R167, R202). -/
def Peer.status (p : Peer) (f : StatusFields) : Peer :=
  { p with
    clock := some (statusClock f), role := statusRole f, partner := statusPartner f
    faults := ⟨#[alignFaults p.faults[0] f none, alignFaults p.faults[1] f (some 0), alignFaults p.faults[2] f (some 1),
      alignFaults p.faults[3] f (some 2)], rfl⟩ }

/-- A STATUS moves the DEAD_AIR flag of some air group from clear to set (R167). -/
def Peer.newDeadAir (p : Peer) (f : StatusFields) : Bool :=
  (!p.faults[1].deadAir && statusDeadAir f 0) || (!p.faults[2].deadAir && statusDeadAir f 1)
    || (!p.faults[3].deadAir && statusDeadAir f 2)

/-- An announced item takes the next arrival number. -/
def State.nextStamp (s : State) : State := { s with peers := { s.peers with stamps := s.peers.stamps + 1 } }

def State.isPartner (s : State) (q : Station) : Bool := s.partner == some q

/-! ### The broadcast notices (R162 to R167) -/

/-- START from a peer: the entry, then peer coupling, then the pair controller when it is the partner (R162). -/
def State.tableStart (s : State) (q : Station) (f : StartFields) : State :=
  let tag := f.tag.toNat
  (s.modPeer q fun p => p.start f s.peers.stamps).nextStamp.emit
    ([.peerStart q tag (readTime f.segue)] ++ (if s.isPartner q then [.partnerStart tag (readTime f.start)] else []))

/-- SEGUE from a peer (R163). -/
def State.tableSegue (s : State) (q : Station) (f : SegueFields) : State :=
  (s.modPeer q fun p => p.segue f s.peers.stamps).nextStamp.emit [.peerMark q f.tag.toNat]

/-- END from a peer (R164). -/
def State.tableEnd (s : State) (q : Station) (f : EndFields) : State :=
  let tag := f.tag.toNat
  (s.modPeer q fun p => p.finish tag).emit
    ([.peerMark q tag] ++ (if s.isPartner q then [.partnerEnd tag] else []))

/-- DUCK from a peer (R165). -/
def State.tableDuck (s : State) (q : Station) (f : DuckFields) : State := s.modPeer q fun p => p.duck f

/-- FAULT from a peer; the partner's DEAD_AIR set on an air group is reported (R166). -/
def State.tableFault (s : State) (q : Station) (f : FaultFields) : State :=
  if faultDefined f then
    let s := s.modPeer q fun p => p.fault f
    if s.isPartner q && f.kind == 1 && f.set != 0 && f.group != 0 then s.partnerDeadAir else s
  else s

/-- STATUS from a peer; the partner's is reported, and its new dead air (R167, R178, R184). -/
def State.tableStatus (s : State) (q : Station) (f : StatusFields) : State :=
  let fresh := (s.peer q).newDeadAir f
  let s := s.modPeer q fun p => p.status f
  if s.isPartner q then
    let s := if statusRole f = some .live then s.partnerIsLive else s
    if fresh then s.partnerDeadAir else s
  else s

/-- TAKEN from a peer; the partner's is reported (R167, R187). -/
def State.tableTaken (s : State) (q : Station) : State :=
  let s := s.modPeer q fun p => { p with role := some .live }
  if s.isPartner q then s.partnerTaken q else s

/-! ### Peer coupling (R168 to R174) -/

/-- An AFTER_PEER record, unstarted and not marked triggered, that names a peer tag with a test on its station. -/
def CueRecord.awaits (r : CueRecord) (st : Station → Bool) (tag : Nat) : Bool :=
  r.kind == .afterPeer && r.unstarted && !r.triggered
    && (match r.peer with | some (q, t) => st q && t == tag | none => false)

/-- Peer coupling hears a START: with both clocks LOCKED the expected segue is the scheduled start of each waiting record
(R169). -/
def State.coupleStart (s : State) (q : Station) (tag : Nat) (segue : Option Nat) : State :=
  if s.clock.state = .locked ∧ (s.peer q).clock = some .locked then
    match segue with
    | none => s
    | some x => ((s.records.filter fun r => r.awaits (s.isSource q) tag).map (·.tag)).foldl (fun s t => s.schedule t x) s
  else s

/-- Peer coupling hears a SEGUE or END: each waiting record is triggered, in list order (R170). -/
def State.coupleMark (s : State) (q : Station) (tag : Nat) : State :=
  s.emit ((s.records.filter fun r => r.awaits (s.isSource q) tag).map fun r => .peerTrigger r.tag)

/-- A waiting record's scheduled start is cleared with its expiry, and it is triggered (R170). -/
def State.peerTrigger (s : State) (tag : Nat) : State :=
  match s.find tag with
  | none => s
  | some r =>
    if r.unstarted && !r.triggered then
      ((s.modRecord tag fun r => { r with scheduled := none }).cancelAir (.scheduledStart tag)).trigger tag
    else s

/-- A WAITING record that names a lost station (R172). -/
def CueRecord.waitsFor (r : CueRecord) (q : Station) : Bool :=
  r.kind == .afterPeer && r.unstarted && !r.triggered && r.scheduled.isNone
    && (match r.peer with | some (st, _) => st == q | none => false)

/-- Peer coupling hears that a station is lost (R172). -/
def State.coupleLost (s : State) (q : Station) : State :=
  s.emit ((s.records.filter fun r => r.waitsFor q).map fun r => .trigger r.tag)

/-! ### Peer loss (R161) -/

/-- An entry becomes LOST: its items, ended tags and duck requests are removed, its clock state becomes NONE (R161). -/
def Peer.lose (p : Peer) : Peer := { p with presence := .lost, items := [], ended := [], ducks := [], clock := none }

/-- The entry's loss, told to peer coupling (R161 steps 1 to 3). The pair controller's part follows in `exec`. -/
def State.loseStation (s : State) (q : Station) : State :=
  ((s.cancelInterval (.peerLoss q)).modPeer q Peer.lose).coupleLost q

/-! ### Air-time expiries at their owners (R46, R48, R51, R53) -/

/-- A fired start time: a HARD_AT record is triggered; a SOFT_AT record when it has no predecessor or its predecessor has
reached its segue mark (R46, R48). -/
def State.startTimeFired (s : State) (tag : Nat) : State :=
  match s.find tag with
  | none => s
  | some r =>
    match r.kind with
    | .hardAt => s.trigger tag
    | .softAt => if s.clearAhead r then s.trigger tag else s
    | .afterPrev => s
    | .followPrev => s
    | .afterPeer => s
    | .go => s

/-- A fired latest start triggers its record (R53). -/
def State.latestStartFired (s : State) (tag : Nat) : State :=
  match s.find tag with
  | none => s
  | some _ => s.trigger tag

/-- A fired scheduled start is cleared and triggers its record (R51, R171). -/
def State.scheduledStartFired (s : State) (tag : Nat) : State :=
  match s.find tag with
  | none => s
  | some _ => (s.modRecord tag fun r => { r with scheduled := none }).trigger tag

/-- A fired air-time expiry at its owner (R13). -/
def State.airFired (s : State) (h : AirHandle) (late : Nat) : State :=
  match h with
  | .startTime t => s.startTimeFired t
  | .latestStart t => s.latestStartFired t
  | .scheduledStart t => s.scheduledStartFired t
  | .rejoin e => s.rejoinFired e
  | .fillFade e => s.fillFadeFired e late
  | .idHold e => s.idHoldFired e

/-- An air-time expiry is delivered: the Timebase removes it and its owner acts with its lateness (R13). -/
def State.deliver (s : State) (x : AirExpiry) : State :=
  (s.cancelAir x.handle).airFired x.handle (lateness x.target s.now)

/-- Every air-time expiry that tests due fires (R15). -/
def State.fireDue (s : State) : State := s.dueAir.foldl State.fireAir s

end Sys2Proof.Machine
end

