-- ==== Sys2Proof/Machine/Reads.lean ====
section
/-! DEFINITION. How a read of the store ends (R21, R22, R25, R26, R29 to R31). -/

namespace Sys2Proof.Machine

/-- The fetch in progress ends with an outcome and is handed to its owner (R25). -/
def State.endFetch (s : State) (o : FetchInProgress → FetchOutcome) : State :=
  match s.reader.fetch with
  | none => s
  | some f => (s.modReader fun r => { r with fetch := none }).emit [.fetchEnded f (o f)]

/-- A directory read ended GOOD: entry 0 ends the fetch NO_CART, another is the header address and the fetch wants its header
read (R25). -/
def State.directoryRead (s : State) (data : List Byte) : State :=
  match s.reader.fetch with
  | none => s
  | some f =>
    let u := directoryEntry f.cart data
    if u = 0 then s.endFetch fun _ => .failed .noCart
    else s.modReader fun r => { r with fetch := some { f with header := some u } }

/-- A read ended GOOD: its data goes to its purpose (R25, R29). -/
def State.readGood (s : State) (p : Purpose) (data : List Byte) : State :=
  match p with
  | .directory => s.directoryRead data
  | .header => s.endFetch fun f => readHeader f.cart data
  | .block d slot b => s.handBlock d slot b (some data)

/-- A retry ended BAD: a fetch ends STORE, a block is handed over as failed (R26, R30). -/
def State.readFailed (s : State) (p : Purpose) : State :=
  match p with
  | .directory => s.endFetch fun _ => .failed .store
  | .header => s.endFetch fun _ => .failed .store
  | .block d slot b => s.handBlock d slot b none

/-- The read in flight ends: `none` is BAD. An abandoned read comes to nothing, a first BAD is retried at once with a new read
number (R21, R26, R30, R31). -/
def State.endRead (s : State) (r : StoreRead) (data : Option (List Byte)) : State :=
  let s := (s.modReader fun x => { x with flight := none }).cancelInterval .readTimeout
  if r.abandoned then s
  else match data with
    | some d => s.readGood r.purpose d
    | none => if r.retry then s.readFailed r.purpose else s.issue r.purpose r.unit r.units true

/-- The read in flight bears this number (R21). -/
def State.awaits (s : State) (number : Nat) : Bool :=
  match s.reader.flight with
  | none => false
  | some r => r.number == number

/-- STORE_COMPLETION: a completion whose number is that of the read in flight ends it; any other is a stray (R21). One
of a read issued before a cold reset is a stray by R197, but bears no more than its number: it is told by that alone (assumption 51). -/
def State.completionAt (s : State) (number : Nat) (data : Option (List Byte)) : State :=
  match s.reader.flight with
  | none => s
  | some r => if r.number = number then s.endRead r data else s

/-- READ_TIMEOUT: the read in flight ends BAD (R22). -/
def State.readTimeoutAt (s : State) : State :=
  match s.reader.flight with
  | none => s.cancelInterval .readTimeout
  | some r => s.endRead r none

end Sys2Proof.Machine
end

