-- ==== Sys2Proof/Machine/Work.lean ====
section
/-! DEFINITION. Carrying out what the rules make follow inside a step, one reaction after another (assumption 2). -/

namespace Sys2Proof.Machine

/-- A header fetch's owner takes its outcome (R25, R39, R126). -/
def State.fetchEnded (s : State) (f : FetchInProgress) (o : FetchOutcome) : State :=
  match f.owner with
  | .record t => s.recordFetched t o
  | .fill e => s.fillFetched e f.stale o

/-- One reaction. -/
def State.perform (s : State) (t : Task) : State :=
  match t with
  | .fired h late => s.airFired h late
  | .fireDue => s.fireDue
  | .trigger tag => s.trigger tag
  | .answer tag => s.answerTrigger tag
  | .start tag since cold late => s.startRecord tag since cold late
  | .armed tag => s.recordArmed tag
  | .judgeNew tag => s.judgeNew tag
  | .rejudge tag => s.rejudge tag
  | .followSegue tag => s.followSegue tag
  | .followEnd tag => s.followEnd tag
  | .bind => s.bind
  | .joined tag => s.memberJoined tag
  | .memberStarted tag => s.memberStarted tag
  | .memberLeft id g fill => s.memberLeft id g fill []
  | .deckIdle d => s.deckIdleAt d
  | .memberReady tag => s.memberReady tag
  | .lookForMembers e => s.lookForMembers e
  | .fit e => s.fit e
  | .fetchEnded f o => s.fetchEnded f o
  | .storeEnd d => s.storeEndAt d
  | .fadeMark d => s.fadeMarkAt d
  | .truncBegin d => s.truncBeginAt d
  | .segueMark d => s.segueMarkAt d
  | .seguePast tag => s.tellSegue tag
  | .itemEnd d => s.itemEndAt d
  | .peerStart q tag segue => s.coupleStart q tag segue
  | .peerMark q tag => s.coupleMark q tag
  | .peerTrigger tag => s.peerTrigger tag
  | .partnerStart tag start => s.followStart tag start
  | .partnerEnd tag => s.followPartnerEnd tag
  | .grant => s.grant
  | .boundary => s

def Task.isBoundary : Task → Bool
  | .boundary => true
  | _ => false

/-- What a reaction has asked for comes before what waited behind it. -/
def newFirst (l : List Task) : List Task :=
  (l.dropWhile fun t => !t.isBoundary).drop 1 ++ l.takeWhile fun t => !t.isBoundary

/-- Reactions are carried out depth first: what one asks for is done before what stood behind it. What stands behind is within reach of
a departure, which discards what names the record that leaves (R58). At most `fuel` are carried out; any left stay in `work` for the
next step (assumption 2). -/
def State.run : Nat → State → State
  | 0, s => s
  | n + 1, s =>
    match s.work with
    | [] => s
    | t :: rest =>
      let s1 := ({ s with work := rest ++ [.boundary] } : State).perform t
      State.run n { s1 with work := newFirst s1.work }

/-- The reactions that one step may carry out. -/
def stepFuel : Nat := 4096

/-- The reactions that stand are carried out. -/
def State.settleWork (s : State) : State := s.run stepFuel

/-- The reactions that stand are carried out, and the store reader then grants if its port is idle (R28). -/
def State.finish (s : State) : State := (s.emit [.grant]).settleWork

end Sys2Proof.Machine
end

