-- ==== Sys2Proof/Machine/Bus.lean ====
section
/-! DEFINITION. The cue bus controller's sending side (chapter 8), and the STATUS it is handed (9.4, R203). -/

namespace Sys2Proof.Machine

/-! ### Frames (R142 to R149) -/

/-- A frame is begun: SENDING, and the head of the queue is in flight (R144). The recessive count is left as it stands, since R142 counts
only in WAIT_IDLE (assumption 23). -/
def CueBus.begin_ (b : CueBus) : CueBus :=
  match b.send, b.line, b.queue with
  | .enabled, .idle, q :: _ => { b with line := .sending, flight := some q.order }
  | _, _, _ => b

/-- The notice in flight, as the queue holds it. -/
def CueBus.flown (b : CueBus) : Option Queued := b.flight.bind fun o => b.queue.find? fun q => q.order == o

/-- The notice in flight, while a frame is being sent. -/
def CueBus.sending (b : CueBus) : Option Queued := if b.line = .sending then b.flown else none

/-- The attempt in flight ends without its notice leaving: a held STATUS replaces the queued one's content (R151). -/
def CueBus.endAttempt (b : CueBus) : CueBus :=
  { b with
    flight := none, held := none
    queue := match b.held with
      | none => b.queue
      | some f => replaceStatus f b.queue }

/-- ARBITRATION_LOST: the winning frame is received, the notice keeps its place and its error count (R145, R151). The
recessive count is left as it stands (R142; assumption 23). -/
def CueBus.loseArbitration (b : CueBus) : CueBus :=
  match b.sending with
  | none => b
  | some _ => { b.endAttempt with line := .receiving }

/-- A queued notice leaves the queue (R147, R149, R152). -/
def CueBus.remove (b : CueBus) (o : Nat) : CueBus := { b with queue := b.queue.filter fun x => x.order != o }

/-- The notice in flight leaves the queue; a held STATUS joins as a new one (R151). The as-run log judges its offer after that: R151
and R192 put both at this moment and give no order (assumption 39). -/
def CueBus.leave (b : CueBus) (o : Nat) : CueBus :=
  let b1 := { (b.remove o) with flight := none, held := none }
  match b.held with
  | none => b1
  | some f => (b1.handPlain (.status f)).1

/-- A bit error raises the error count of the notice in flight (R146). -/
def CueBus.countError (b : CueBus) (o : Nat) : CueBus :=
  { b with queue := b.queue.map fun x => if x.order = o then { x with errors := x.errors + 1 } else x }

/-- A bit error: FLAGGING, in which the error flag is driven, and the error run one higher (R146). -/
def CueBus.flag (b : CueBus) : CueBus := { b with line := .flagging, recessive := 0, errorRun := min 16 (b.errorRun + 1) }

/-- An ASRUN has left the queue by drop: the log keeps its record and the offer state becomes IDLE (R147, R195). -/
def State.toldDropped (s : State) (n : Notice) : State := if n.isAsrun then s.unoffer else s.judgeOffer

/-- The sixteenth bit error without a completed frame: QUIET, BUS_ERROR, the quiet expiry of 480,000 sample periods (R148). -/
def State.judgeQuiet (s : State) : State :=
  if s.bus.errorRun = 16 then
    (s.modBus fun b => { b with send := .quiet, busError := true }).setInterval .quiet 480000
  else s

/-- BIT_ERROR: the error flag begins, and the notice's error count and the error run are one higher (R146). R146 has the notice in flight
become absent, and does not say whether before the error flag or after it: it is in flight until the flag has been driven, so that it is
not evicted (R152) and a STATUS handed meanwhile is held (R151), and its drop comes after the flag (R147; assumption 23). -/
def State.bitErrorAt (s : State) : State :=
  match s.bus.sending with
  | none => s
  | some q => s.modBus fun b => b.flag.countError q.order

/-- The attempt that a bit error ended is over: a notice with its fourth bit error leaves, BUS_ERROR is set and the as-run log told (R147);
any other keeps its place (R146). A held STATUS joins or replaces as R151 lays down. -/
def State.endFlown (s : State) : State :=
  match s.bus.flown with
  | none => s.modBus CueBus.endAttempt
  | some q =>
    if 4 ≤ q.errors then (s.modBus fun b => { b.leave q.order with busError := true }).toldDropped q.notice
    else s.modBus CueBus.endAttempt

/-- The error flag has been driven: the line waits for idle with the count at 0, no notice is in flight, and then come the drop of R147
and the BUS_QUIET of R148, in that order (R146 to R148; assumption 23). -/
def State.endFlag (s : State) : State :=
  match s.bus.line with
  | .flagging => (s.modBus fun b => { b with line := .waitIdle, recessive := 0 }).endFlown.judgeQuiet
  | .waitIdle => s
  | .idle => s
  | .receiving => s
  | .sending => s

/-- The log is told that the offered ASRUN's frame is complete: its oldest record leaves, and the next may be offered (R194). -/
def State.sentAsRun (s : State) : State :=
  State.judgeOffer { s with log := { s.log with records := s.log.records.drop 1, offer := none } }

/-- FRAME_COMPLETE (R149, R151, R192, R194). -/
def State.frameCompleteAt (s : State) : State :=
  match s.bus.sending with
  | none => s
  | some q =>
    let s := s.modBus fun b => { (b.leave q.order) with line := .waitIdle, recessive := 0, errorRun := 0 }
    if q.notice.isAsrun then s.sentAsRun else s.judgeOffer

/-- QUIET_EXPIRY (R148). -/
def State.quietExpired (s : State) : State :=
  (s.cancelInterval .quiet).modBus fun b =>
    if b.send = .quiet then
      { b with send := .enabled, errorRun := 0, queue := b.queue.map fun x => { x with errors := 0 } }
    else b

/-- Ten recessive bit times have been counted; a frame being received has ended before them (R142; assumption 23). -/
def CueBus.lineIdle (b : CueBus) : CueBus :=
  match b.line with
  | .waitIdle => { b with line := .idle, recessive := 10 }
  | .receiving => { b with line := .idle, recessive := 10 }
  | .idle => b
  | .flagging => b
  | .sending => b

/-- LINE_IDLE at the controller: an error flag has ended before the ten recessive bit times (R142, R146). -/
def State.lineIdleAt (s : State) : State := s.endFlag.modBus CueBus.lineIdle

/-! ### A frame that is not handed to a block (R153 to R157) -/

/-- A well-formed frame's notice taken by its kind (R155, R157). -/
def State.hearLoad (s : State) (h : Header) (f : LoadFields) : State := s.heard h fun s => s.addressed h fun s => s.takeLoad f

def State.hearDrop (s : State) (h : Header) (tag : Nat) : State := s.heard h fun s => s.addressed h fun s => s.takeDrop tag

/-- CLEAR to its owners in the order of R157: running order, store reader, gain and mix unit, break fitter, output monitor;
then what the running order's departures left to do (R55). A monitor window that was complete before is judged first (R113, R122). -/
def State.takeClear (s : State) : State :=
  s.monitorWindowAt.clearRecords.clearReader.clearRequests.clearBreaks.clearMonitor

def State.hearClear (s : State) (h : Header) : State := s.heard h fun s => s.addressed h State.takeClear

def State.hearGo (s : State) (h : Header) (group : Nat) : State := s.heard h fun s => s.addressed h fun s => s.takeGo group

def State.hearLevel (s : State) (h : Header) (f : LevelFields) : State := s.heard h fun s => s.addressed h fun s => s.setLevel f

def State.hearBreak (s : State) (h : Header) (f : BreakFields) : State :=
  s.heard h fun s => s.addressed h fun s => s.takeBreak f

/-- TAKE: ignored when it is for the partner (R179). -/
def State.hearTake (s : State) (h : Header) : State :=
  s.heard h fun s => s.addressed h fun s => if s.forSelf h then s.takeForSelf else s

/-- CLEAR_FAULTS at the output monitor and the cue bus controller (R120, R158); a monitor window that was complete before is judged
first (R113). -/
def State.hearClearFaults (s : State) (h : Header) : State :=
  s.heard h fun s => s.addressed h fun s => s.monitorWindowAt.clearLatched.clearBusFlags

def State.hearStart (s : State) (h : Header) (f : StartFields) : State := s.heard h fun s => s.tableStart (senderOf h) f

def State.hearSegue (s : State) (h : Header) (f : SegueFields) : State := s.heard h fun s => s.tableSegue (senderOf h) f

def State.hearEnd (s : State) (h : Header) (f : EndFields) : State := s.heard h fun s => s.tableEnd (senderOf h) f

def State.hearDuck (s : State) (h : Header) (f : DuckFields) : State := s.heard h fun s => s.tableDuck (senderOf h) f

def State.hearFault (s : State) (h : Header) (f : FaultFields) : State := s.heard h fun s => s.tableFault (senderOf h) f

def State.hearStatus (s : State) (h : Header) (f : StatusFields) : State := s.heard h fun s => s.tableStatus (senderOf h) f

def State.hearTaken (s : State) (h : Header) : State := s.heard h fun s => s.tableTaken (senderOf h)

/-- ASRUN from a peer changes nothing beyond its presence (R167). -/
def State.hearAsrun (s : State) (h : Header) : State := s.heard h fun s => s

/-- A frame's notice by its kind (R155, R157). -/
def State.hearNotice (s : State) (h : Header) (n : Notice) : State :=
  match n with
  | .take => s.hearTake h
  | .taken => s.hearTaken h
  | .fault f => s.hearFault h f
  | .start f => s.hearStart h f
  | .segue f => s.hearSegue h f
  | .finish f => s.hearEnd h f
  | .go g => s.hearGo h g.toNat
  | .level f => s.hearLevel h f
  | .duck f => s.hearDuck h f
  | .clearFaults => s.hearClearFaults h
  | .load f => s.hearLoad h f
  | .drop t => s.hearDrop h t.toNat
  | .clear => s.hearClear h
  | .declareBreak f => s.hearBreak h f
  | .status f => s.hearStatus h f
  | .asrun _ => s.hearAsrun h

/-- The line state after a frame that the checks of R153 discard: nothing else changes. -/
def State.discardFrame (s : State) : State :=
  match s.bus.line with
  | .idle => s.toWaitIdle
  | .receiving => s.toWaitIdle
  | .waitIdle => s.toWaitIdle
  | .sending => s
  | .flagging => s

/-- A frame as the line carried it (R153): discarded by a check; reported as a presence alone when its kind or its length names
no notice (R155); else taken by its kind, and so ignored, or refused by the mask, as R154 to R157 say. -/
def State.hearBits (s : State) (bits : List BusBit) : State :=
  match readFrame bits with
  | .formError => s.discardFrame
  | .lengthError => s.discardFrame
  | .crcError => s.discardFrame
  | .endError => s.discardFrame
  | .wellFormed f =>
    match readNotice f.kind.toNat f.payload with
    | none => s.heard f.header fun s => s
    | some n => s.hearNotice f.header n

/-! ### STATUS (R175, R176, R139, R203) -/

/-- The entries in the order in which reports come round: from the position plus one, wrapping from 7 to 0 (R203). -/
def reportOrder (pos : EntryNo) : List EntryNo :=
  [pos + 1, pos + 2, pos + 3, pos + 4, pos + 5, pos + 6, pos + 7, pos]

/-- The RUNNING entry that the next STATUS reports (R203). -/
def State.reportEntry (s : State) : Option EntryNo :=
  (reportOrder s.breaks.reportPos).find? fun e => (s.entry e).state == .running

/-- The break report of an entry: SHORT in bit 7, OVERRUN_DROPS in bit 6, the group in bits 1 and 0 (R139, 13.3). -/
def State.reportOf (s : State) (e : EntryNo) : ReportFields :=
  let b := s.entry e
  { id := byteField b.id
    flags := BitVec.ofBool b.short ++ BitVec.ofBool b.overrunDrops ++ (0 : BitVec 4) ++ BitVec.ofNat 2 b.group.val
    countdown := BitVec.ofNat 32 (subAir b.rejoin s.now)
    gap := BitVec.ofNat 32 (match b.projected with | none => 0 | some e => room b.rejoin e) }

/-- The STATUS of the present moment (R176, 13.3). -/
def State.statusNow (s : State) : StatusFields :=
  { head := s.statusHead
    partner := byteField (match s.partner with | none => 255 | some q => q.val)
    trim := BitVec.ofInt 16 s.clock.trim
    rejected := byteField s.clock.rejected
    day := wordField s.clock.day
    decks := s.deckWord
    recordCount := byteField s.records.length
    logCount := byteField s.log.records.length
    lostCount := byteField s.log.lost
    groups := s.groupWord
    report := s.reportEntry.map s.reportOf }

/-- The report position moves to the entry reported (R203). -/
def State.moveReport (s : State) : State :=
  match s.reportEntry with
  | none => s
  | some e => { s with breaks := { s.breaks with reportPos := e } }

/-- STATUS_BEACON: the beacon is set again, a STATUS is formed and handed (R175). -/
def State.beaconFired (s : State) : State :=
  let s := s.setInterval .beacon 12000
  s.moveReport.hand (.status s.statusNow)

end Sys2Proof.Machine
end

