-- ==== Sys2Proof/Machine/StartUp.lean ====
section
/-! DEFINITION. Start-up (chapter 12): cold reset, the configuration record, the first sample period; and the meanings of
COLD_RESET and CONFIG_ATTEMPT_END. -/

namespace Sys2Proof.Machine

/-- The step's answer for a command with an effect. -/
abbrev Answer := Host.Outcome State Fault Refusal

/-- Before the first sample period the part takes nothing but its start-up: bus, store port and time reference are not read, and
no expiry runs (R197, R200). -/
def whenRunning (s : State) (f : State → State) : Answer :=
  match s.phase with
  | .configuring => .next s
  | .running => .next (f s)

/-- The role state with which a role setting starts (R177). -/
def startRole : RoleSetting → RoleState
  | .solo => .live
  | .main => .listen
  | .standby => .shadow

/-- The air gate with which a role setting starts (R177). -/
def startGate : RoleSetting → Gate
  | .solo => { state := .opened, weight := 960 }
  | .main => { state := .closed, weight := 0 }
  | .standby => { state := .closed, weight := 0 }

/-- The monitor state with which a role setting starts (6.4). -/
def startMonitor : RoleSetting → MonState
  | .solo => .sounding
  | .main => .suspended
  | .standby => .suspended

/-- The interval expiries of the first sample period, counted from it (R175, R177, R200). -/
def startIntervals (r : RoleSetting) : List IntervalExpiry :=
  [⟨.beacon, 12000⟩, ⟨.startUpListen, 48000⟩] ++
    (match r with
      | .solo => []
      | .main => [⟨.listen, 48000⟩]
      | .standby => [⟨.absentWatch, 48000⟩])

/-- Frames of zero on all four outputs (R111). -/
def silentOutputs : Outputs := ⟨⟨0, 0⟩, ⟨0, 0⟩, ⟨0, 0⟩, ⟨0, 0⟩⟩

/-- The first sample period begins with a configuration record taken or defaulted (R85, R177, R198, R200). The outputs send frames from
this sample period on, and no earlier one gives its content: no deck has sounded, so frames of zero are sent (R111; assumption 40). -/
def State.firstPeriod (s : State) (c : ConfigRecord) (byDefault : Bool) : State :=
  { s with
    out := some silentOutputs
    phase := .running, cfg := c, configDefault := byDefault, period := 1
    pair := { role := startRole c.setting }
    mix := { s.mix with master := c.master, levels := c.startLevels, gate := startGate c.setting }
    monitor := { s.monitor with groups := Vector.replicate 3 { state := startMonitor c.setting } }
    intervals := startIntervals c.setting }

/-- A read attempt of the configuration record ends (R198). -/
def State.configAttempt (s : State) (r : ConfigRead) : State :=
  match r with
  | .failed => if 2 ≤ s.attempts then ({ s with attempts := 3 } : State).firstPeriod defaultConfig true
      else { s with attempts := s.attempts + 1 }
  | .bytes d => if configMarkerGood d then s.firstPeriod (readConfig s.ownStation d) false else s.firstPeriod defaultConfig true

/-- COLD_RESET (R197): every block holds its after-reset values, the straps give the own station. Only the environment's queue of
commands is not the part's to clear. -/
def execColdReset (straps : BitVec 4) (s : State) : Answer :=
  .next { State.reset with ownStation := straps.toFin, pending := s.pending }

/-- CONFIG_ATTEMPT_END (R198). -/
def execConfigAttemptEnd (r : ConfigRead) (s : State) : Answer :=
  match s.phase with
  | .configuring => .next (s.configAttempt r)
  | .running => .next s

end Sys2Proof.Machine
end

