-- ==== Sys2Proof/Machine/Periods.lean ====
section
/-! DEFINITION. The sample period, the events that fall due in it, and the meanings of the commands that are such events. -/

namespace Sys2Proof.Machine

/-! ### Air-time expiries by owner (R13) -/

/-- The running order owns the expiries of records, the break fitter those of break entries. -/
def AirHandle.ofRecord (h : AirHandle) : Bool := h.record?.isSome

/-- A list up to and including its first element that meets a test; empty when none does. -/
def upTo {α : Type} (p : α → Bool) : List α → List α
  | [] => []
  | x :: xs => if p x then [x] else match upTo p xs with
    | [] => []
    | ys => x :: ys

/-- What is delivered when an air-time expiry fires: of its owner's due expiries, those that R13 puts before it, and it. -/
def State.delivered (s : State) (h : AirHandle) : List AirExpiry :=
  upTo (fun x => x.handle == h) (s.dueAir.filter fun x => x.handle.ofRecord == h.ofRecord)

/-- An air-time expiry that tests due fires and its owner acts; nothing when it is not held or not due (R13). What is
delivered is fixed as they fire, so that one of them reaches its owner also where an earlier one has cancelled it; SAMPLE_PERIOD takes
them one by one and leaves such a one out. R13 does not say which holds between expiries that fire together (assumption 24). -/
def State.airEvent (s : State) (h : AirHandle) : State :=
  match s.delivered h with
  | [] => s
  | x :: xs => (xs.foldl (fun s y => s.settleWork.deliver y) (s.deliver x)).finish

/-- The rejoin guards that test due in the present sample period act before a STATUS is formed, so that the rejoin time of a RUNNING
entry never tests due in its report (R137, R139). -/
def State.guardsFirst (s : State) : State := allEntries.foldl (fun s e => s.airEvent (.rejoin e)) s

/-- STATUS_BEACON (R139, R175). -/
def State.statusBeaconAt (s : State) : State := s.guardsFirst.beaconFired

/-! ### Interval expiries (R14) -/

/-- START_UP_LISTEN_EXPIRY: the send state becomes ENABLED (R201). -/
def State.startUpListenFired (s : State) : State :=
  (s.cancelInterval .startUpListen).modBus fun b => if b.send = .held then { b with send := .enabled } else b

/-- PEER_LOSS: the entry is lost, peer coupling acts, then the pair controller when it was the partner (R161). -/
def State.peerLossFired (s : State) (q : Station) : State :=
  let s := (s.loseStation q).settleWork
  if s.isPartner q then s.partnerLost else s

/-- The pair controller's expiry, where it falls due in the present sample period: R201 has the first frame of a MAIN or STANDBY begin
after it. -/
def State.pairFirst (s : State) : State :=
  let s := if s.intervalDue .listen then s.listenFired.finish else s
  if s.intervalDue .absentWatch then s.absentWatchFired.finish else s

/-- An interval expiry at its owner. -/
def State.intervalFired (s : State) (h : IntervalHandle) : State :=
  match h with
  | .labelWindow => s.windowExpired
  | .labelGap => s.labelGapAt
  | .readTimeout => s.readTimeoutAt
  | .beacon => s.statusBeaconAt
  | .startUpListen => s.startUpListenFired
  | .listen => s.listenFired
  | .absentWatch => s.absentWatchFired
  | .takenWindow => s.cancelInterval .takenWindow
  | .quiet => s.quietExpired
  | .peerLoss q => s.peerLossFired q

/-! ### The events that are due and not yet taken -/

/-- The first event due at a deck, in the order of R66. Between them and a skip-silent (R82) the manual gives no order: the skip-silent
comes last (assumption 35). -/
def State.deckEvent (s : State) (d : DeckNo) : Option State :=
  let x := s.deck d
  if x.blockDue then some (s.blockEnteredAt d)
  else if x.fadeInDue then some (s.fadeInEndAt d)
  else if x.fadeMarkDue then some (s.fadeMarkAt d)
  else if x.truncDue then some (s.truncBeginAt d)
  else if x.segueDue then some (s.segueMarkAt d)
  else if x.endDue then some (s.itemEndAt d)
  else if s.skipDue d then some (s.skipSilentAt d)
  else none

/-- The first event that is due in this sample period and has not been taken: gate, window, yield, slew run, interval expiries in
the order set, air-time expiries in R13's order, decks in increasing number, the control period's computation (assumption 4). A window is
full once its last sample period has been mixed, so a STATUS formed in that sample period comes before the window's judgement
(R116, R176; assumption 46). -/
def State.firstDue (s : State) : Option State :=
  if s.mix.gate.openDone then some s.gateOpenAt
  else if s.mix.gate.closeDone then some s.gateClosedAt
  else if s.monitor.full then some s.monitorWindowAt
  else if s.yieldDone then some s.yieldToShadowAt
  else if s.clock.runDone then some s.slewRunAt
  else match s.intervals.find? fun x => decide (x.deadline ≤ s.period) with
    | some x => some (s.intervalFired x.handle)
    | none =>
      match s.dueAir with
      | x :: _ => some (s.deliver x)
      | [] =>
        match allDecks.findSome? s.deckEvent with
        | some t => some t
        | none => if s.controlDue then some s.controlPeriodAt else none

/-- The events due are taken one by one, each with what follows from it. -/
def State.takeDue : Nat → State → State
  | 0, s => s
  | n + 1, s =>
    match s.firstDue with
    | none => s
    | some t => State.takeDue n t.finish

/-- The close of a sample period, before its frames leave: the control period's computation from the inputs as they stand, the end of
an error flag, the STORE FAULTs (R88, R119, R146). -/
def State.closePeriod (s : State) : State := s.settleControl.endFlag.closeFaults

/-- The events that one sample period may still take. -/
def periodFuel : Nat := 512

/-- SAMPLE_PERIOD: the events of the sample period that no command has delivered are taken, the sample period is closed, then the
frames are mixed and every count moves on (R1, R66, R88, R106 to R113; assumption 4). -/
def execSamplePeriod (s : State) : Answer := whenRunning s fun s => (s.takeDue periodFuel).closePeriod.tick

/-- CONTROL_PERIOD (R88). -/
def execControlPeriod (s : State) : Answer := whenRunning s State.controlPeriodAt

/-- MONITOR_WINDOW (R113). -/
def execMonitorWindow (s : State) : Answer := whenRunning s State.monitorWindowAt

/-! ### Timebase -/

/-- TIME_PULSE (R4, R5). -/
def execTimePulse (s : State) : Answer := whenRunning s State.timePulseAt

/-- TIME_LABEL (R4 to R12, R15). -/
def execTimeLabel (day : BitVec 16) (second : Nat) (s : State) : Answer :=
  whenRunning s fun s => (s.timeLabelAt day second).finish

/-- LABEL_WINDOW_EXPIRY (R5). -/
def execLabelWindowExpiry (s : State) : Answer :=
  whenRunning s fun s => if s.intervalDue .labelWindow then s.windowExpired else s

/-- LABEL_GAP (R8, R9). -/
def execLabelGap (s : State) : Answer := whenRunning s fun s => if s.intervalDue .labelGap then s.labelGapAt else s

/-- SLEW_RUN (R10). -/
def execSlewRun (s : State) : Answer := whenRunning s State.slewRunAt

/-! ### Store reader -/

/-- STORE_COMPLETION (R21). -/
def execStoreCompletion (number : BitVec 8) (good : Bool) (data : List Byte) (s : State) : Answer :=
  whenRunning s fun s =>
    if s.awaits number.toNat then (s.completionAt number.toNat (if good then some data else none)).finish else s

/-- READ_TIMEOUT (R22). -/
def execReadTimeout (s : State) : Answer :=
  whenRunning s fun s => if s.intervalDue .readTimeout then s.readTimeoutAt.finish else s

/-! ### Air-time expiries -/

/-- START_TIME_EXPIRY (R46, R48). -/
def execStartTimeExpiry (tag : Nat) (s : State) : Answer := whenRunning s fun s => s.airEvent (.startTime tag)

/-- LATEST_START_EXPIRY (R53). -/
def execLatestStartExpiry (tag : Nat) (s : State) : Answer := whenRunning s fun s => s.airEvent (.latestStart tag)

/-- SCHEDULED_START_EXPIRY (R171). -/
def execScheduledStartExpiry (tag : Nat) (s : State) : Answer := whenRunning s fun s => s.airEvent (.scheduledStart tag)

/-- REJOIN_GUARD (R137). -/
def execRejoinGuard (e : EntryNo) (s : State) : Answer := whenRunning s fun s => s.airEvent (.rejoin e)

/-- FILL_FADE_EXPIRY (R135). -/
def execFillFadeExpiry (e : EntryNo) (s : State) : Answer := whenRunning s fun s => s.airEvent (.fillFade e)

/-- ID_HOLD_EXPIRY (R138). -/
def execIdHoldExpiry (e : EntryNo) (s : State) : Answer := whenRunning s fun s => s.airEvent (.idHold e)

/-! ### Decks -/

/-- The marks that begin fades, where they fall at the position too: R66 takes them before the segue mark. -/
def State.fadeMarksFirst (s : State) (d : DeckNo) : State :=
  let s := if (s.deck d).fadeMarkDue then (s.fadeMarkAt d).settleWork else s
  if (s.deck d).truncDue then (s.truncBeginAt d).settleWork else s

/-- The segue mark, where it falls at the position too: R66 takes it before the end. -/
def State.segueFirst (s : State) (d : DeckNo) : State :=
  if (s.deck d).segueDue then (s.segueMarkAt d).settleWork else s

/-- SEGUE_MARK (R66, R72). -/
def execSegueMark (d : DeckNo) (s : State) : Answer :=
  whenRunning s fun s => (if (s.deck d).segueDue then (s.fadeMarksFirst d).segueMarkAt d else s).finish

/-- FADE_MARK (R77). -/
def execFadeMark (d : DeckNo) (s : State) : Answer := whenRunning s fun s => (s.fadeMarkAt d).finish

/-- FADE_IN_END (R73). -/
def execFadeInEnd (d : DeckNo) (s : State) : Answer := whenRunning s fun s => s.fadeInEndAt d

/-- TRUNCATION_FADE_BEGIN (R78). -/
def execTruncationFadeBegin (d : DeckNo) (s : State) : Answer := whenRunning s fun s => (s.truncBeginAt d).finish

/-- BLOCK_ENTERED (R66, R69). -/
def execBlockEntered (d : DeckNo) (s : State) : Answer := whenRunning s fun s => (s.blockEnteredAt d).finish

/-- ITEM_END (R66, R79, R80). -/
def execItemEnd (d : DeckNo) (s : State) : Answer :=
  whenRunning s fun s => (if (s.deck d).endDue then ((s.fadeMarksFirst d).segueFirst d).itemEndAt d else s).finish

/-- SKIP_SILENT (R82). -/
def execSkipSilent (d : DeckNo) (s : State) : Answer := whenRunning s fun s => (s.skipSilentAt d).finish

/-! ### Gate and pair -/

/-- GATE_OPEN (R109). -/
def execGateOpen (s : State) : Answer := whenRunning s State.gateOpenAt

/-- GATE_CLOSED (R109). -/
def execGateClosed (s : State) : Answer := whenRunning s State.gateClosedAt

/-- YIELD_TO_SHADOW (R188). -/
def execYieldToShadow (s : State) : Answer := whenRunning s State.yieldToShadowAt

/-- LISTEN_EXPIRY (R178). -/
def execListenExpiry (s : State) : Answer :=
  whenRunning s fun s => if s.intervalDue .listen then s.listenFired.finish else s

/-- ABSENT_WATCH (R177). -/
def execAbsentWatch (s : State) : Answer :=
  whenRunning s fun s => if s.intervalDue .absentWatch then s.absentWatchFired.finish else s

/-- TAKEN_WINDOW_EXPIRY: the TAKEN window closes (R185). -/
def execTakenWindowExpiry (s : State) : Answer :=
  whenRunning s fun s => if s.intervalDue .takenWindow then s.cancelInterval .takenWindow else s

/-! ### Beacon, listen, peers -/

/-- PEER_LOSS (R161). -/
def execPeerLoss (q : Station) (s : State) : Answer :=
  whenRunning s fun s => if s.intervalDue (.peerLoss q) then (s.peerLossFired q).finish else s

/-- STATUS_BEACON (R175). -/
def execStatusBeacon (s : State) : Answer := whenRunning s fun s => if s.intervalDue .beacon then s.statusBeaconAt else s

/-- START_UP_LISTEN_EXPIRY (R201). -/
def execStartUpListenExpiry (s : State) : Answer :=
  whenRunning s fun s => if s.intervalDue .startUpListen then s.startUpListenFired else s

end Sys2Proof.Machine
end

