-- ==== Sys2Proof/Machine/Notices.lean ====
section
/-! DEFINITION. The meanings of the commands that a received frame carries, and of the cue bus's own events. -/

namespace Sys2Proof.Machine

/-! ### Addressed notices (R156, R157, R179) -/

/-- LOAD (R36 to R38). -/
def execLoad (h : Header) (f : LoadFields) (s : State) : Answer := whenRunning s fun s => (s.hearLoad h f).finish

/-- DROP (R54). -/
def execDrop (h : Header) (tag : BitVec 16) (s : State) : Answer := whenRunning s fun s => (s.hearDrop h tag.toNat).finish

/-- CLEAR (R55, R32, R105, R140, R122). -/
def execClear (h : Header) (s : State) : Answer := whenRunning s fun s => (s.hearClear h).finish

/-- GO (R52). -/
def execGo (h : Header) (group : Byte) (s : State) : Answer := whenRunning s fun s => (s.hearGo h group.toNat).finish

/-- LEVEL (R86). -/
def execLevel (h : Header) (f : LevelFields) (s : State) : Answer := whenRunning s fun s => s.hearLevel h f

/-- BREAK (R124, R125). -/
def execDeclareBreak (h : Header) (f : BreakFields) (s : State) : Answer := whenRunning s fun s => (s.hearBreak h f).finish

/-- TAKE (R178, R179, R184). -/
def execTake (h : Header) (s : State) : Answer := whenRunning s fun s => (s.hearTake h).finish

/-- CLEAR_FAULTS (R120, R158). -/
def execClearFaults (h : Header) (s : State) : Answer := whenRunning s fun s => s.hearClearFaults h

/-! ### Broadcast notices (R162 to R167, R187) -/

/-- START from a peer (R162, R169, R181). -/
def execPeerStart (h : Header) (f : StartFields) (s : State) : Answer := whenRunning s fun s => (s.hearStart h f).finish

/-- SEGUE from a peer (R163, R170). -/
def execPeerSegue (h : Header) (f : SegueFields) (s : State) : Answer := whenRunning s fun s => (s.hearSegue h f).finish

/-- END from a peer (R164, R170, R182). -/
def execPeerEnd (h : Header) (f : EndFields) (s : State) : Answer := whenRunning s fun s => (s.hearEnd h f).finish

/-- DUCK from a peer (R165). -/
def execPeerDuck (h : Header) (f : DuckFields) (s : State) : Answer := whenRunning s fun s => s.hearDuck h f

/-- FAULT from a peer (R166, R184). -/
def execPeerFault (h : Header) (f : FaultFields) (s : State) : Answer := whenRunning s fun s => (s.hearFault h f).finish

/-- STATUS from a peer (R167, R178, R184). -/
def execPeerStatus (h : Header) (f : StatusFields) (s : State) : Answer := whenRunning s fun s => (s.hearStatus h f).finish

/-- TAKEN from a peer (R167, R178, R187). -/
def execPeerTaken (h : Header) (s : State) : Answer := whenRunning s fun s => s.hearTaken h

/-- ASRUN from a peer: its presence alone (R167). -/
def execPeerAsrun (h : Header) (_f : AsRunFields) (s : State) : Answer := whenRunning s fun s => s.hearAsrun h

/-! ### The cue bus controller -/

/-- FRAME_NOT_HANDED (R153 to R157). -/
def execFrameNotHanded (bits : List BusBit) (s : State) : Answer := whenRunning s fun s => (s.hearBits bits).finish

/-- FRAME_BEGIN (R144, R201). -/
def execFrameBegin (s : State) : Answer := whenRunning s fun s => s.pairFirst.modBus CueBus.begin_

/-- ARBITRATION_LOST (R145). -/
def execArbitrationLost (s : State) : Answer := whenRunning s fun s => s.modBus CueBus.loseArbitration

/-- BIT_ERROR (R146). -/
def execBitError (s : State) : Answer := whenRunning s State.bitErrorAt

/-- FRAME_COMPLETE (R149). -/
def execFrameComplete (s : State) : Answer := whenRunning s State.frameCompleteAt

/-- QUIET_EXPIRY (R148). -/
def execQuietExpiry (s : State) : Answer := whenRunning s fun s => if s.intervalDue .quiet then s.quietExpired else s

/-- LINE_IDLE (R142). -/
def execLineIdle (s : State) : Answer := whenRunning s fun s => s.lineIdleAt

end Sys2Proof.Machine
end

