-- ==== Sys2Proof/Machine/Dispatch.lean ====
section
/-! DEFINITION. The meaning of every command, one arm per constructor. -/

namespace Sys2Proof.Machine

def exec (i : Instr) (s : State) : Host.Outcome State Fault Refusal :=
  match i with
  | .coldReset straps => Sys2Proof.Machine.execColdReset straps s
  | .configAttemptEnd result => Sys2Proof.Machine.execConfigAttemptEnd result s
  | .samplePeriod => Sys2Proof.Machine.execSamplePeriod s
  | .controlPeriod => Sys2Proof.Machine.execControlPeriod s
  | .monitorWindow => Sys2Proof.Machine.execMonitorWindow s
  | .timePulse => Sys2Proof.Machine.execTimePulse s
  | .timeLabel day second => Sys2Proof.Machine.execTimeLabel day second s
  | .labelWindowExpiry => Sys2Proof.Machine.execLabelWindowExpiry s
  | .labelGap => Sys2Proof.Machine.execLabelGap s
  | .slewRun => Sys2Proof.Machine.execSlewRun s
  | .storeCompletion number good data => Sys2Proof.Machine.execStoreCompletion number good data s
  | .readTimeout => Sys2Proof.Machine.execReadTimeout s
  | .load h f => Sys2Proof.Machine.execLoad h f s
  | .drop h tag => Sys2Proof.Machine.execDrop h tag s
  | .clear h => Sys2Proof.Machine.execClear h s
  | .go h group => Sys2Proof.Machine.execGo h group s
  | .level h f => Sys2Proof.Machine.execLevel h f s
  | .declareBreak h f => Sys2Proof.Machine.execDeclareBreak h f s
  | .take h => Sys2Proof.Machine.execTake h s
  | .clearFaults h => Sys2Proof.Machine.execClearFaults h s
  | .peerStart h f => Sys2Proof.Machine.execPeerStart h f s
  | .peerSegue h f => Sys2Proof.Machine.execPeerSegue h f s
  | .peerEnd h f => Sys2Proof.Machine.execPeerEnd h f s
  | .peerDuck h f => Sys2Proof.Machine.execPeerDuck h f s
  | .peerFault h f => Sys2Proof.Machine.execPeerFault h f s
  | .peerStatus h f => Sys2Proof.Machine.execPeerStatus h f s
  | .peerTaken h => Sys2Proof.Machine.execPeerTaken h s
  | .peerAsrun h f => Sys2Proof.Machine.execPeerAsrun h f s
  | .frameNotHanded bits => Sys2Proof.Machine.execFrameNotHanded bits s
  | .frameBegin => Sys2Proof.Machine.execFrameBegin s
  | .arbitrationLost => Sys2Proof.Machine.execArbitrationLost s
  | .bitError => Sys2Proof.Machine.execBitError s
  | .frameComplete => Sys2Proof.Machine.execFrameComplete s
  | .quietExpiry => Sys2Proof.Machine.execQuietExpiry s
  | .startTimeExpiry tag => Sys2Proof.Machine.execStartTimeExpiry tag s
  | .latestStartExpiry tag => Sys2Proof.Machine.execLatestStartExpiry tag s
  | .scheduledStartExpiry tag => Sys2Proof.Machine.execScheduledStartExpiry tag s
  | .segueMark deck => Sys2Proof.Machine.execSegueMark deck s
  | .fadeMark deck => Sys2Proof.Machine.execFadeMark deck s
  | .fadeInEnd deck => Sys2Proof.Machine.execFadeInEnd deck s
  | .truncationFadeBegin deck => Sys2Proof.Machine.execTruncationFadeBegin deck s
  | .blockEntered deck => Sys2Proof.Machine.execBlockEntered deck s
  | .itemEnd deck => Sys2Proof.Machine.execItemEnd deck s
  | .skipSilent deck => Sys2Proof.Machine.execSkipSilent deck s
  | .gateOpen => Sys2Proof.Machine.execGateOpen s
  | .gateClosed => Sys2Proof.Machine.execGateClosed s
  | .yieldToShadow => Sys2Proof.Machine.execYieldToShadow s
  | .rejoinGuard entry => Sys2Proof.Machine.execRejoinGuard entry s
  | .fillFadeExpiry entry => Sys2Proof.Machine.execFillFadeExpiry entry s
  | .idHoldExpiry entry => Sys2Proof.Machine.execIdHoldExpiry entry s
  | .peerLoss station => Sys2Proof.Machine.execPeerLoss station s
  | .statusBeacon => Sys2Proof.Machine.execStatusBeacon s
  | .startUpListenExpiry => Sys2Proof.Machine.execStartUpListenExpiry s
  | .listenExpiry => Sys2Proof.Machine.execListenExpiry s
  | .absentWatch => Sys2Proof.Machine.execAbsentWatch s
  | .takenWindowExpiry => Sys2Proof.Machine.execTakenWindowExpiry s
  | .lineIdle => Sys2Proof.Machine.execLineIdle s

end Sys2Proof.Machine
end

