-- ==== Sys2Proof/Safety.lean ====
section
/-! DEFINITION. The terms in which claims about the KC240 are made: what a command leaves alone, what may happen inside one
command, and the limits that every step keeps. -/

namespace Sys2Proof.Machine

/-- The state with everything that a reaction inside a command may move set to its after-reset value. Two states with equal
`still` agree on start-up, configuration, clock, peer table, pair, gate, levels, monitor, the interval expiries but for the read
timeout, the bus but for its queue, the break report position, and the queue of commands. -/
def State.still (s : State) : State :=
  { s with
    airExpiries := [], intervals := s.intervals.filter fun x => x.handle != .readTimeout, reader := {}, records := []
    decks := Vector.replicate 4 {}
    mix := { s.mix with
      requests := Vector.replicate 4 none, lastWord := Vector.replicate 4 0, newWord := Vector.replicate 4 0
      duckBase := Vector.replicate 4 0 }
    monitor := { s.monitor with timers := Vector.replicate 4 0, storeFaults := [] }
    breaks := { s.breaks with entries := Vector.replicate 8 {} }
    bus := { s.bus with queue := [], txDiscard := false, handed := 0 }
    log := {}, work := [] }

/-- The limits of the as-run log (R189). -/
def AsRunLog.Ok (l : AsRunLog) : Prop := l.records.length ≤ 32 ∧ l.nextSeq < 256 ∧ l.lost ≤ 255

/-- The cue tags of the running order, in list order. -/
def State.tags (s : State) : List Nat := s.records.map (·.tag)

/-- The limits of the running order: at most 48 records, no two with one tag (R34). -/
def State.OrderOk (s : State) : Prop := s.records.length ≤ 48 ∧ s.tags.Nodup

/-- `t` can follow `s` inside one command: reactions leave `still` alone, only append to the as-run log, keep the log's, the
queue's and the running order's limits, bring in no tag but a fill tag, and raise no duck value. -/
structure State.After (s t : State) : Prop where
  still : t.still = s.still
  appends : s.log.records <+: t.log.records
  log : s.log.Ok → t.log.Ok
  queue : s.bus.queue.length ≤ 8 → t.bus.queue.length ≤ 8
  order : s.OrderOk → t.OrderOk
  tags : ∀ x ∈ t.tags, x ∈ s.tags ∨ 65280 ≤ x
  ducks : ∀ d : DeckNo, (t.deck d).duckValue ≤ (s.deck d).duckValue
  bases : ∀ d : DeckNo, t.mix.duckBase[d] ≤ s.mix.duckBase[d]

/-- No grant stands to be made: a read is in flight, or no request stands (R28). -/
def State.NoGrant (s : State) : Prop :=
  s.reader.flight.isSome = true
    ∨ s.chosen Deck.urgent = none ∧ s.reader.headerStands = false ∧ s.chosen Deck.fills = none

/-- Nothing stands to be carried out and no grant stands to be made: a command that changes nothing leaves such a state as
it is. -/
def State.AtRest (s : State) : Prop := s.work = [] ∧ s.NoGrant

/-- The clock's ranges (state table of chapter 1). -/
def Clock.Ok (c : Clock) : Prop :=
  c.airTime < dayLength ∧ c.day < 65536 ∧ c.good ≤ 3 ∧ -4800 ≤ c.trim ∧ c.trim ≤ 4800 ∧ c.rejected ≤ 255

/-- The limits of a peer entry's lists (R159). -/
def Peer.Ok (p : Peer) : Prop := p.items.length ≤ 8 ∧ p.ended.length ≤ 8 ∧ p.ducks.length ≤ 8

/-- The limits that every step keeps. -/
structure State.Limits (s : State) : Prop where
  clock : s.clock.Ok
  order : s.OrderOk
  log : s.log.Ok
  queue : s.bus.queue.length ≤ 8
  gate : s.mix.gate.weight ≤ 960
  peers : ∀ q : Station, (s.peer q).Ok
  ducks : ∀ d : DeckNo, (s.deck d).duckValue ≤ 300
  bases : ∀ d : DeckNo, s.mix.duckBase[d] ≤ 300

/-- The controller reads a frame: its line is IDLE, or it is RECEIVING (R142). -/
def LineState.Reads (l : LineState) : Prop := l = .idle ∨ l = .receiving

/-- A frame from another station can be read: sample periods run, the line state lets it be read, and the sender is not the engine's
own number (R142, R153, R154). -/
def State.Hears (s : State) (h : Header) : Prop :=
  s.phase = .running ∧ s.bus.line.Reads ∧ senderOf h ≠ s.ownStation

/-- An addressed notice is heard, for self or for partner, from a station in the loader mask (R156, R157). -/
def State.Takes (s : State) (h : Header) : Prop :=
  s.Hears h ∧ (s.forSelf h = true ∨ s.forPartner h = true) ∧ s.masked h = true

/-- The state in which a heard frame's content is taken: the line waits for idle and the sender is PRESENT (R153, R160). -/
def State.onHearing (s : State) (h : Header) : State := s.toWaitIdle.presence (senderOf h)

/-- `t` is an engine that has taken the air from `s` (R109, R121, R185): LIVE and not yielding, its gate opening from its present
weight, its monitors watching from counts of 0, its TAKEN window open for 48,000 sample periods, no listen expiry and no absent
watch. -/
structure State.TookAir (s t : State) : Prop where
  pair : t.pair = { role := .live, yielding := false, closedAt := none }
  gate : t.mix.gate = s.mix.gate.openRequest
  monitor : ∀ a : Fin 3, (t.monitor.groups[a]).state = .sounding ∧ (t.monitor.groups[a]).silence = 0
    ∧ (t.monitor.groups[a]).overloadRun = 0
  window : ⟨.takenWindow, s.period + 48000⟩ ∈ t.intervals
  expiries : t.hasInterval .listen = false ∧ t.hasInterval .absentWatch = false

/-- A LIVE engine's record stands ARMED on a deck, of a kind that displaces nothing: the next trigger starts it (R44). -/
structure State.Ready (s : State) (tag : Nat) (r : CueRecord) (d : DeckNo) (it : Item) : Prop where
  live : s.isLive = true
  found : s.find tag = some r
  armed : r.state = .armed
  kind : r.kind ≠ .hardAt
  deck : r.deck = some d
  item : (s.deck d).item = some it

/-- `x` is `s` in which the record with a tag has just started on its deck at position 0 (R45, R64, R96). -/
structure State.Started (s x : State) (tag : Nat) (d : DeckNo) (it : Item) : Prop where
  playing : (x.deck d).state = .playing
  position : (x.deck d).p = 0
  start : (x.deck d).actualStart = some (subAir s.now 0)
  fresh : (x.deck d).duckValue = 0 ∧ (x.deck d).segued = false ∧ (x.deck d).aired = 0 ∧ (x.deck d).fadeOut = none
  fadeIn : (x.deck d).fadeIn = if 0 < it.fadeIn then some ⟨0, it.fadeIn⟩ else none
  words : x.mix.lastWord[d] = 0 ∧ x.mix.newWord[d] = 0
  timer : x.monitor.timers[d] = 0
  record : ∃ r, x.find tag = some r ∧ r.state = .onAir ∧ r.actualStart = some (subAir s.now 0) ∧ r.triggered = false
    ∧ r.setAside = false ∧ r.airedLive = true
  others : ∀ e : DeckNo, e ≠ d → x.deck e = s.deck e
  order : x.tags = s.tags
  after : s.After x

/-- `t` is `s` with the computation of a control period made for every sounding deck: its duck value has taken one step from `base`
toward the duck target, never past it, and its new gain word is formed with the value just stepped (R88, R101, R102). -/
structure State.Computed (s t : State) (base : DeckNo → Nat) : Prop where
  sounding : ∀ (d : DeckNo) (it : Item), (s.deck d).sounding = true → (s.deck d).item = some it →
    t.deck d = { s.deck d with duckValue :=
      (if base d < s.duckTarget d it then min (base d + stepOf s.cfg.attack (s.domain it.group)) (s.duckTarget d it)
      else if s.duckTarget d it < base d then max (base d - stepOf s.cfg.release (s.domain it.group)) (s.duckTarget d it)
      else base d) }
    ∧ t.mix.newWord[d] = newGainWord it.trim (if it.group = 0 then none else some s.mix.master) s.mix.levels[it.group]
        (t.deck d).duckValue ((s.deck d).fadeTerm it)
  silent : ∀ d : DeckNo, (s.deck d).sounding = false → t.deck d = s.deck d ∧ t.mix.newWord[d] = s.mix.newWord[d]

/-- The FAULTs that the judgement of a group's window hands, by what it changes from `g` to `u`: DEAD_AIR before OVERLOAD (R115 to R117,
R119). -/
def windowFaults (group : Nat) (g u : GroupMonitor) : List Notice :=
  if g.window.wholeLive = true then
    (if u.state = .deadAir ∧ g.state ≠ .deadAir then [.fault ⟨BitVec.ofNat 8 group, 1, 1⟩]
      else if u.state = .sounding ∧ g.state = .deadAir then [.fault ⟨BitVec.ofNat 8 group, 1, 0⟩] else [])
    ++ (if g.window.overload = true ∧ g.overloadRun = 2 then [.fault ⟨BitVec.ofNat 8 group, 2, 1⟩]
      else if g.window.overload = false ∧ g.overloadRun = 3 then [.fault ⟨BitVec.ofNat 8 group, 2, 0⟩] else [])
  else []

/-- The command that carries a notice (R155). -/
def Notice.command (h : Header) : Notice → Instr
  | .take => .take h
  | .taken => .peerTaken h
  | .fault f => .peerFault h f
  | .start f => .peerStart h f
  | .segue f => .peerSegue h f
  | .finish f => .peerEnd h f
  | .go g => .go h g
  | .level f => .level h f
  | .duck f => .peerDuck h f
  | .clearFaults => .clearFaults h
  | .load f => .load h f
  | .drop t => .drop h t
  | .clear => .clear h
  | .declareBreak f => .declareBreak h f
  | .status f => .peerStatus h f
  | .asrun f => .peerAsrun h f

/-- The header of an addressed notice (R155). -/
def addressedHeader : Instr → Option Header
  | .load h _ => some h
  | .drop h _ => some h
  | .clear h => some h
  | .go h _ => some h
  | .level h _ => some h
  | .declareBreak h _ => some h
  | .take h => some h
  | .clearFaults h => some h
  | _ => none

/-- The header of a notice, addressed or broadcast (R155). -/
def noticeHeader : Instr → Option Header
  | .peerStart h _ => some h
  | .peerSegue h _ => some h
  | .peerEnd h _ => some h
  | .peerDuck h _ => some h
  | .peerFault h _ => some h
  | .peerStatus h _ => some h
  | .peerTaken h => some h
  | .peerAsrun h _ => some h
  | i => addressedHeader i

end Sys2Proof.Machine
end

