-- ==== Sys2Proof/Certificates/Slice0/Obligations.lean ====
section
/-! DEFINITION. The statements for the provers. -/

open Sys2Proof Sys2Proof.Machine

/-! ### The step, the limits, the formats -/

/-- A step carries out the front command with the queue's rest, and idles on an empty queue (the model's choice, log entry 3). -/
def Obligations.StepTakesTheFrontCommand : Prop :=
  ∀ s : State, (∀ c rest, s.pending = c :: rest → step s = exec c { s with pending := rest })
    ∧ (s.pending = [] → step s = .next s)

/-- No command ends in a fault or a refusal, and none touches the queue of commands. -/
def Obligations.EveryCommandIsTaken : Prop :=
  ∀ (c : Instr) (s : State), ∃ t, exec c s = .next t ∧ t.pending = s.pending

/-- The limits of R1, R5, R12, R34, R102, R109, R150, R159 and R189 hold right after reset, and with the duck values (R102) the model's
own copies of them that a control period's computation steps from. -/
def Obligations.LimitsHoldAtReset : Prop :=
  State.reset.Limits

/-- Every step keeps those limits, from any state that meets them. -/
def Obligations.LimitsKeptByEveryStep : Prop :=
  ∀ s t : State, s.Limits → step s = .next t → t.Limits

/-- Reading the kind code and payload that a notice is sent with gives the notice back (13.2, 13.3). -/
def Obligations.NoticePayloadsReadBack : Prop :=
  ∀ n : Notice, readNotice n.kindCode.toNat n.payload = some n

/-- Reading a frame's bits, fill bits included, gives the frame back (R141, R143, R153). -/
def Obligations.FramesReadBack : Prop :=
  ∀ f : Frame, f.payload.length ≤ 24 → readFrame f.bits = .wellFormed f

/-! ### Start-up -/

/-- What every block holds when reset is released (R197 and the chapters' tables): every deck, break entry and peer entry as a whole, the
latched flags, the counts and the yield state. That the role state before the configuration is read is LIVE and CONFIG_DEFAULT clear (both
log entry 1), and what a FREE entry's id, group and rejoin time are (log entry 31), is the model's choice: the manual gives none of them a
value then. -/
def Obligations.ColdResetRestoresTheTables : Prop :=
  ∀ (p : BitVec 4) (s : State), ∃ t, exec (.coldReset p) s = .next t
    ∧ t.phase = .configuring ∧ t.ownStation.val = p.toNat ∧ t.out = none ∧ t.liveLine = false
    ∧ t.clock = ⟨0, 0, .free, 0, 0, 0, false, 0, none, none, 0⟩ ∧ t.airExpiries = [] ∧ t.intervals = []
    ∧ t.reader = ⟨none, 0, [], [], none, 3⟩ ∧ t.records = [] ∧ t.log = ⟨[], 0, 0, none⟩
    ∧ (∀ d : DeckNo, t.deck d = {} ∧ (t.deck d).state = .idle ∧ (t.deck d).bound = none ∧ (∀ i : Fin 16, (t.deck d).ring[i] = .free)
        ∧ (t.deck d).storeFlag = false ∧ t.monitor.timers[d] = 0 ∧ t.mix.requests[d] = none
        ∧ t.mix.lastWord[d] = 0 ∧ t.mix.newWord[d] = 0)
    ∧ (∀ e : EntryNo, t.entry e = {} ∧ (t.entry e).state = .free) ∧ t.breaks.full = false ∧ t.breaks.reportPos = 7
    ∧ t.bus = ⟨.held, .waitIdle, 0, [], none, none, 0, false, false, false, false, 0⟩
    ∧ (∀ q : Station, t.peer q = {} ∧ (t.peer q).presence = .absent ∧ (t.peer q).items = [] ∧ (t.peer q).ducks = [])
    ∧ (∀ a : Fin 3, let g := t.monitor.groups[a]
        g.deadAirFlag = false ∧ g.overloadFlag = false ∧ g.silence = 0 ∧ g.overloadRun = 0 ∧ g.window = {})
    ∧ t.pair = { role := .live, yielding := false, closedAt := none } ∧ t.configDefault = false ∧ t.pending = s.pending

/-- The read attempts of the configuration record (R198): two failures are followed by another attempt, the third by the defaults, a
wrong marker by the defaults at once, a right marker by the record's fields. That the command changes nothing once sample periods run is
the model's inference (log entry 6). -/
def Obligations.ConfigAttemptsEndInARecord : Prop :=
  ∀ s : State,
    (s.phase = .configuring →
      (s.attempts < 2 → exec (.configAttemptEnd .failed) s = .next { s with attempts := s.attempts + 1 })
      ∧ (2 ≤ s.attempts → ∃ t, exec (.configAttemptEnd .failed) s = .next t ∧ t.phase = .running ∧ t.configDefault = true
          ∧ t.cfg = {})
      ∧ ∀ d : List Byte, ∃ t, exec (.configAttemptEnd (.bytes d)) s = .next t ∧ t.phase = .running
          ∧ (d.take 4 = [0x4B, 0x43, 0x32, 0x34] → t.configDefault = false ∧ t.cfg = readConfig s.ownStation d)
          ∧ (d.take 4 ≠ [0x4B, 0x43, 0x32, 0x34] → t.configDefault = true ∧ t.cfg = {}))
    ∧ (s.phase = .running → ∀ r, exec (.configAttemptEnd r) s = .next s)

/-- Every field of a record with a right marker is in its range of R199. -/
def Obligations.ConfigFieldsAreInRange : Prop :=
  ∀ (own : Station) (d : List Byte), let c := readConfig own d
    (∀ a : Fin 3, c.domains[a] ≤ 8) ∧ (∀ m : Fin 8, 1 ≤ c.attack[m] ∧ c.attack[m] ≤ 30 ∧ 1 ≤ c.release[m] ∧ c.release[m] ≤ 30)
    ∧ (c.master = .off ∨ ∃ t : Int, c.master = .tenths t ∧ -900 ≤ t ∧ t ≤ 0)
    ∧ (∀ g : Group, c.startLevels[g] = .off ∨ ∃ t : Int, c.startLevels[g] = .tenths t ∧ -900 ≤ t ∧ t ≤ 0)
    ∧ c.threshold ≤ 8388607 ∧ 2 ≤ c.deadAir ∧ c.deadAir ≤ 30 ∧ c.skipSilent ≤ 10 ∧ c.mask ≠ 0
    ∧ (c.setting = .solo ↔ c.partner = none) ∧ c.partner ≠ some own

/-- The first sample period (R177, R198 to R200): role state, gate, monitor and interval expiries by the role setting. -/
def Obligations.RoleSettingStartsTheEngine : Prop :=
  ∀ (s : State) (d : List Byte), s.phase = .configuring → d.take 4 = [0x4B, 0x43, 0x32, 0x34] →
    ∃ t, exec (.configAttemptEnd (.bytes d)) s = .next t ∧ t.period = 1 ∧ t.clock = s.clock ∧ t.bus = s.bus
      ∧ t.mix.master = t.cfg.master ∧ t.mix.levels = t.cfg.startLevels
      ∧ (t.cfg.setting = .solo → t.pair.role = .live ∧ t.mix.gate = ⟨.opened, 960⟩ ∧ t.liveLine = true
          ∧ (∀ a : Fin 3, (t.monitor.groups[a]).state = .sounding)
          ∧ t.intervals = [⟨.beacon, 12000⟩, ⟨.startUpListen, 48000⟩])
      ∧ (t.cfg.setting = .main → t.pair.role = .listen ∧ t.mix.gate = ⟨.closed, 0⟩ ∧ t.liveLine = false
          ∧ (∀ a : Fin 3, (t.monitor.groups[a]).state = .suspended)
          ∧ t.intervals = [⟨.beacon, 12000⟩, ⟨.startUpListen, 48000⟩, ⟨.listen, 48000⟩])
      ∧ (t.cfg.setting = .standby → t.pair.role = .shadow ∧ t.mix.gate = ⟨.closed, 0⟩ ∧ t.liveLine = false
          ∧ (∀ a : Fin 3, (t.monitor.groups[a]).state = .suspended)
          ∧ t.intervals = [⟨.beacon, 12000⟩, ⟨.startUpListen, 48000⟩, ⟨.absentWatch, 48000⟩])

/-! ### The sample period and the control period -/

/-- Whatever falls due in it, a sample period moves air time on by one, wrapping at Dlen into the day number, and counts itself
(R1, R3). -/
def Obligations.SamplePeriodAdvancesAirTime : Prop :=
  ∀ s : State, s.phase = .running → ∃ t, exec .samplePeriod s = .next t ∧ t.period = s.period + 1
    ∧ t.clock.airTime = (if s.clock.airTime + 1 < 4147200000 then s.clock.airTime + 1 else 0)
    ∧ t.clock.day = (if s.clock.airTime + 1 < 4147200000 then s.clock.day else (s.clock.day + 1) % 65536)

/-- A sample period in which nothing falls due: the frames that leave, UNDERRUN on every record whose frame's block is missing, the decks'
advance, the window records, the skip-silent timers, the last gain words after 48 samples, and all that stays as it is (R66, R67, R82,
R88, R95, R106 to R113). It closes before its frames leave: in the first sample period of a control period the words are those of the
inputs as they stand then (the model's inference, log entry 38), an error flag has ended (log entry 23), and the STORE FAULTs that arose
in it are handed (log entry 41). -/
def Obligations.QuietSamplePeriodMixes : Prop :=
  ∀ s : State, s.phase = .running → s.firstDue = none → let x := s.closePeriod
    (s.controlIndex ≠ 0 → s.bus.line ≠ .flagging → s.monitor.storeFaults = [] → x = s) ∧ ∃ t, exec .samplePeriod s = .next t
    ∧ t.mix.gate = s.mix.gate.move
    ∧ t.out = some {
        airA := ((x.groupSum 1).saturated).gated s.mix.gate.move.weight
        airB := ((x.groupSum 2).saturated).gated s.mix.gate.move.weight
        airC := ((x.groupSum 3).saturated).gated s.mix.gate.move.weight
        audition := (x.groupSum 0).saturated }
    ∧ t.records = (s.records.map fun r =>
        if (allDecks.any fun d => (s.deck d).sounding && (s.deck d).bound == some r.tag && (s.deck d).item.isSome
          && ((s.deck d).filledBlock ((s.deck d).p / 1024)).isNone) = true
        then { r with flags := { r.flags with underrun := true } } else r)
    ∧ (∀ d : DeckNo, t.deck d = if (s.deck d).sounding then
        { x.deck d with
          p := (s.deck d).p + 1, fadeIn := (s.deck d).fadeIn.map fun f => { f with pos := f.pos + 1 }
          fadeOut := (s.deck d).fadeOut.map fun f => { f with pos := f.pos + 1 }
          aired := if s.isLive then (s.deck d).aired + 1 else (s.deck d).aired } else s.deck d)
    ∧ (∀ a : Fin 3, let g := s.monitor.groups[a]; let sum := x.groupSum a.succ; let sent := sum.saturated.gated s.mix.gate.move.weight
        t.monitor.groups[a] = { g with window := {
          peak := max g.window.peak (max sent.left.natAbs sent.right.natAbs)
          sounding := g.window.sounding || allDecks.any fun d =>
            (s.deck d).sounding && (match (s.deck d).item with | some it => it.group == a.succ | none => false)
          overload := g.window.overload || decide (sum.saturated ≠ sum)
          wholeLive := g.window.wholeLive && s.isLive } })
    ∧ (∀ (d : DeckNo) (it : Item), (s.deck d).item = some it → let f := (s.deck d).handed it
        t.monitor.timers[d] = if s.isLive = true ∧ (s.deck d).state = .playing ∧ (s.deck d).fadeIn = none
            ∧ f.left.natAbs < s.cfg.threshold ∧ f.right.natAbs < s.cfg.threshold
          then min (s.cfg.skipSilent * 48000) (s.monitor.timers[d] + 1) else 0)
    ∧ (∀ d : DeckNo, (s.deck d).item = none → t.monitor.timers[d] = 0)
    ∧ t.monitor.full = decide (s.period % 480 = 0) ∧ t.monitor.storeFaults = x.monitor.storeFaults
    ∧ t.mix.master = s.mix.master ∧ t.mix.levels = s.mix.levels ∧ t.mix.requests = s.mix.requests ∧ t.mix.newWord = x.mix.newWord
    ∧ t.mix.lastWord = (if s.controlIndex = 47 then x.mix.newWord else s.mix.lastWord)
    ∧ t.bus = x.bus ∧ t.log = x.log ∧ t.intervals = x.intervals
    ∧ t.tags = s.tags ∧ t.reader = s.reader ∧ t.breaks = s.breaks ∧ t.peers = s.peers ∧ t.pair = s.pair
    ∧ t.cfg = s.cfg ∧ t.airExpiries = s.airExpiries ∧ t.work = s.work

/-- From a deck's frame to the outputs: the frame of the play position from its FILLED slot, else zero (R67); scaled by the ramped gain,
floor of (x g + 2^19) / 2^20 (R97); summed exactly over the decks of the group (R106); saturated (R107); sent through the gate between 0
and the mixed sample, whole at weight 960 and silent at 0 (R108). -/
def Obligations.FramesAreScaledSummedAndGated : Prop :=
  (∀ (s : State) (d : DeckNo) (it : Item), (s.deck d).sounding = true → (s.deck d).item = some it → let f := (s.deck d).handed it
    ((s.deck d).filledBlock ((s.deck d).p / 1024) = none → f = ⟨0, 0⟩)
    ∧ (∀ a, (s.deck d).filledBlock ((s.deck d).p / 1024) = some a → f = blockFrame it.format a ((s.deck d).p % 1024))
    ∧ (∀ g, g ≠ it.group → s.outputOn g d = ⟨0, 0⟩)
    ∧ s.outputOn it.group d = ⟨outputSample f.left (s.rampOf d), outputSample f.right (s.rampOf d)⟩)
  ∧ (∀ (s : State) (d : DeckNo) (g : Group), (s.deck d).sounding = false → s.outputOn g d = ⟨0, 0⟩)
  ∧ (∀ (s : State) (d : DeckNo), s.rampOf d = rampGain s.mix.lastWord[d] s.mix.newWord[d] ((s.period - 1) % 48))
  ∧ (∀ x g : Int, 1048576 * outputSample x g ≤ x * g + 524288 ∧ x * g + 524288 < 1048576 * (outputSample x g + 1))
  ∧ (∀ (s : State) (g : Group),
    (s.groupSum g).left = (s.outputOn g 0).left + (s.outputOn g 1).left + (s.outputOn g 2).left + (s.outputOn g 3).left
    ∧ (s.groupSum g).right = (s.outputOn g 0).right + (s.outputOn g 1).right + (s.outputOn g 2).right + (s.outputOn g 3).right)
  ∧ (∀ x : Int, -8388608 ≤ saturate x ∧ saturate x ≤ 8388607 ∧ (-8388608 ≤ x → x ≤ 8388607 → saturate x = x)
      ∧ (8388607 < x → saturate x = 8388607) ∧ (x < -8388608 → saturate x = -8388608))
  ∧ (∀ (s : Int) (w : Nat), w ≤ 960 → (0 ≤ s → 0 ≤ gateSample s w ∧ gateSample s w ≤ s)
      ∧ (s ≤ 0 → s ≤ gateSample s w ∧ gateSample s w ≤ 0))
  ∧ (∀ s : Int, gateSample s 960 = s ∧ gateSample s 0 = 0)

/-- Stage 1 by its table (R90); stage 2, the sum of trim, levels, duck value and fade, word 0 for a level OFF or a sum below -900, and 120
at the most (R91, R92, the master absent for the audition output); stage 4 by its table (R94); and the ramp of stage 5, which starts from
the last word, ends on the new word at sample 47, stays between them and keeps a word that does not change (R95). -/
def Obligations.GainStagesFollowTheirTables : Prop :=
  (fadeContribution none = some 0 ∧ ∀ f : FadeTerm, (f.law = .linear → fadeContribution (some f) = some 0)
      ∧ (f.law = .log → f.fadesIn = true → f.pos = 0 → fadeContribution (some f) = none)
      ∧ (f.law = .log → f.fadesIn = true → 0 < f.pos → f.pos < f.len →
          fadeContribution (some f) = some (-600 + ((600 * f.pos / f.len : Nat) : Int)))
      ∧ (f.law = .log → f.fadesIn = true → 0 < f.pos → f.len ≤ f.pos → fadeContribution (some f) = some 0)
      ∧ (f.law = .log → f.fadesIn = false → f.pos < f.len → fadeContribution (some f) = some (-((600 * f.pos / f.len : Nat) : Int)))
      ∧ (f.law = .log → f.fadesIn = false → f.len ≤ f.pos → fadeContribution (some f) = none))
  ∧ (∀ (trim : Int) (master : Option Level) (level : Level) (duck : Nat) (fade : Option FadeTerm),
      let word := newGainWord trim master level duck fade
      (fadeContribution fade = none → word = 0)
      ∧ (master = some .off ∨ level = .off → word = 0)
      ∧ ∀ (m l f : Int), (master = some (.tenths m) ∨ master = none ∧ m = 0) → level = .tenths l → fadeContribution fade = some f →
          let c := trim + m + l - duck + f
          (c < -900 → word = 0) ∧ (-900 ≤ c → c ≤ 120 → word = linearFade (gainWord c) fade)
          ∧ (120 < c → word = linearFade (gainWord 120) fade))
  ∧ (∀ (g : Nat), linearFade g none = g
    ∧ ∀ f : FadeTerm, (f.law = .log → linearFade g (some f) = g)
      ∧ (f.law = .linear → f.fadesIn = true → f.pos < f.len → linearFade g (some f) = g * f.pos / f.len)
      ∧ (f.law = .linear → f.fadesIn = true → f.len ≤ f.pos → linearFade g (some f) = g)
      ∧ (f.law = .linear → f.fadesIn = false → f.pos < f.len → linearFade g (some f) = g * (f.len - f.pos) / f.len)
      ∧ (f.law = .linear → f.fadesIn = false → f.len ≤ f.pos → linearFade g (some f) = 0))
    ∧ (∀ last new : Nat, rampGain last new 47 = new ∧ (∀ k, rampGain last last k = last)
    ∧ ∀ k, k < 48 → rampGain last new k = last + Int.tdiv (((new : Int) - last) * (k + 1)) 48
      ∧ min (last : Int) new ≤ rampGain last new k ∧ rampGain last new k ≤ max (last : Int) new)

/-- Stage 3 gives the integer nearest to 1,048,576 × 10^(C / 200), a value halfway taking the larger, for every composite that
passes stage 2 (R93). -/
def Obligations.GainWordIsTheNearest : Prop :=
  (∀ c : Int, -900 ≤ c → c ≤ 120 →
    (gainWord c : ℝ) - 1 / 2 ≤ 1048576 * (10 : ℝ) ^ ((c : ℝ) / 200)
      ∧ 1048576 * (10 : ℝ) ^ ((c : ℝ) / 200) < (gainWord c : ℝ) + 1 / 2)
  ∧ gainWord 0 = 1048576 ∧ gainWord 120 = 4174456 ∧ gainWord (-900) = 33

/-- The computation of a control period: every sounding deck's duck value steps toward its target, never past it, and its new gain word
is formed from the value just stepped; nothing else changes but the model's own copy of the duck values before it (R88, R101, R102). A
CONTROL_PERIOD that is not due changes nothing (the model's choice, log entry 9). At the close of the first sample period the one
computation is that of the inputs as they then stand, stepped from that copy (the model's inference, log entry 38). -/
def Obligations.ControlPeriodComputesEachDeck : Prop :=
  (∀ s : State, s.phase = .running →
    (s.controlDue = true → ∃ t, exec .controlPeriod s = .next t ∧ s.Computed t (fun d => (s.deck d).duckValue)
      ∧ (∀ d : DeckNo, t.mix.duckBase[d] = (s.deck d).duckValue)
      ∧ t = { s with decks := t.decks, mix := { s.mix with newWord := t.mix.newWord, duckBase := t.mix.duckBase }, controlDone := true })
    ∧ (s.controlDue = false → exec .controlPeriod s = .next s))
    ∧ (∀ s : State, s.controlIndex = 0 → s.controlDone = true → let t := s.settleControl
      s.Computed t (fun d => s.mix.duckBase[d]) ∧ t = { s with decks := t.decks, mix := { s.mix with newWord := t.mix.newWord } })

/-- The duck target: 0 for an ADVERT and outside every domain, else the greatest of the depths asked for in the domain by other
decks and by peers (R101), each taken as at most 300 (R100), the partner's own tag left out; 0 when there is none. -/
def Obligations.DuckTargetIsAGreatestDepth : Prop :=
  ∀ (s : State) (d : DeckNo) (it : Item),
    ((it.cls = .advert ∨ s.domain it.group = 0) → s.duckTarget d it = 0)
    ∧ (it.cls ≠ .advert → s.domain it.group ≠ 0 →
        (∀ e : DeckNo, e ≠ d → ∀ q, s.mix.requests[e] = some q → q.domain = s.domain it.group → min 300 q.depth ≤ s.duckTarget d it)
        ∧ (∀ p : Station, ∀ q ∈ (s.peer p).ducks, q.domain = s.domain it.group →
            ¬ (s.partner = some p ∧ (s.deck d).bound = some q.tag) → min 300 q.depth ≤ s.duckTarget d it)
        ∧ (s.duckTarget d it = 0
            ∨ (∃ e : DeckNo, e ≠ d ∧ ∃ q, s.mix.requests[e] = some q ∧ q.domain = s.domain it.group ∧ s.duckTarget d it = min 300 q.depth)
            ∨ ∃ p : Station, ∃ q ∈ (s.peer p).ducks, q.domain = s.domain it.group
              ∧ ¬ (s.partner = some p ∧ (s.deck d).bound = some q.tag) ∧ s.duckTarget d it = min 300 q.depth))

/-- A window that is full is judged for each air group that was LIVE in all of it, and every window record is cleared; one that was
not LIVE throughout moves no count, state or flag (R113, R115 to R117). A LIVE engine hands the FAULTs of what changes, A, B, C, DEAD_AIR
before OVERLOAD, and an engine that is not LIVE hands nothing (R119). That the STORE FAULTs of the window's last sample period have waited
for them, and that those of any other sample period wait for its close, is the model's inference (log entry 41). A MONITOR_WINDOW without a
full window changes nothing (the model's choice, log entry 9). -/
def Obligations.MonitorWindowJudgesEachGroup : Prop :=
  (∀ s : State, s.monitor.full = false →
    (s.period % 480 = 0 → s.closeFaults = s)
    ∧ (s.period % 480 ≠ 0 → s.closeFaults =
      (s.monitor.storeFaults.map fun f => Notice.fault ⟨BitVec.ofNat 8 f.group, 3, 1⟩).foldl State.handLive
        { s with monitor := { s.monitor with storeFaults := [] } }))
  ∧ ∀ s : State, s.phase = .running →
    (s.monitor.full = false → exec .monitorWindow s = .next s)
    ∧ (s.monitor.full = true → ∃ t, exec .monitorWindow s = .next t ∧ t.monitor.full = false ∧ t.monitor.timers = s.monitor.timers
      ∧ t.monitor.storeFaults = (s.monitor.storeFaults.filter fun f => decide (s.period ≤ f.period))
      ∧ (s.isLive = false → t.bus = s.bus ∧ t.log = s.log)
      ∧ (let handed := ((windowFaults 1 s.monitor.groups[0] t.monitor.groups[0] ++ windowFaults 2 s.monitor.groups[1] t.monitor.groups[1]
            ++ windowFaults 3 s.monitor.groups[2] t.monitor.groups[2])
          ++ (s.monitor.storeFaults.filter fun f => decide (f.period < s.period)).map fun f =>
            Notice.fault ⟨BitVec.ofNat 8 f.group, 3, 1⟩).foldl State.handLive s
        t.bus = handed.bus ∧ t.log = handed.log)
      ∧ t = { s with monitor := t.monitor, bus := t.bus, log := t.log }
      ∧ ∀ a : Fin 3, let g := s.monitor.groups[a]; let u := t.monitor.groups[a]; let n := s.cfg.deadAir * 100
          u.window = {}
          ∧ (g.window.wholeLive = false → u = { g with window := {} })
          ∧ (g.window.wholeLive = true → g.window.silent s.cfg.threshold = false → g.state ≠ .suspended →
              u.silence = 0 ∧ u.state = .sounding ∧ u.deadAirFlag = g.deadAirFlag)
          ∧ (g.window.wholeLive = true → g.window.silent s.cfg.threshold = true → (g.state = .sounding ∨ g.state = .silent) →
              u.silence = (if g.state = .sounding then 1 else g.silence + 1)
              ∧ u.state = (if n ≤ u.silence then .deadAir else .silent) ∧ u.deadAirFlag = (g.deadAirFlag || decide (n ≤ u.silence)))
          ∧ (g.window.wholeLive = true → g.window.silent s.cfg.threshold = true → g.state = .deadAir →
              u.silence = g.silence ∧ u.state = .deadAir ∧ u.deadAirFlag = g.deadAirFlag)
          ∧ (g.window.wholeLive = true → g.overloadRun ≤ 3 →
              u.overloadRun = (if g.window.overload then min 3 (g.overloadRun + 1) else 0)
              ∧ u.overloadFlag = (g.overloadFlag || (g.window.overload && decide (g.overloadRun = 2)))))

/-! ### The Timebase -/

/-- A pulse latches own air time and day and opens a window of 4,800 sample periods; a reference event that yields no valid label raises
the rejected count, which stays at 255, and changes nothing else but the window that it closes; cold reset clears the count and
STATUS carries it (R4, R5). -/
def Obligations.PulsesLatchAndRejectedLabelsAreCounted : Prop :=
  (∀ s : State, s.phase = .running → exec .timePulse s = .next (({ s with clock := { s.clock with
    pulse := some ⟨s.clock.airTime, s.clock.day⟩
    rejected := if s.clock.pulse.isSome then min 255 (s.clock.rejected + 1) else s.clock.rejected } } : State).setInterval
      .labelWindow 4800))
    ∧ (∀ s : State, s.phase = .running →
    (∀ day second, s.AtRest → s.clock.pulse = none →
      exec (.timeLabel day second) s = .next { s with clock := { s.clock with rejected := min 255 (s.clock.rejected + 1) } })
    ∧ (∀ day second, s.AtRest → s.clock.pulse.isSome = true → 86399 < second →
      exec (.timeLabel day second) s = .next (({ s with clock := { s.clock with
        rejected := min 255 (s.clock.rejected + 1), pulse := none } } : State).cancelInterval .labelWindow))
    ∧ (s.intervalDue .labelWindow = true → s.clock.pulse.isSome = true →
      exec .labelWindowExpiry s = .next (({ s with clock := { s.clock with
        rejected := min 255 (s.clock.rejected + 1), pulse := none } } : State).cancelInterval .labelWindow)))
    ∧ ∀ s : State, (∀ p, ∃ t, exec (.coldReset p) s = .next t ∧ t.clock.rejected = 0)
      ∧ s.statusNow.rejected = BitVec.ofNat 8 s.clock.rejected

/-- The error of a label is the raw difference folded into half a day either way, with its expected day, and the drift is what has built up
beyond the remainder, defined after a valid label within 96,000 sample periods that no step handled (R6). A valid label within 480 samples
is slewed: the remainder becomes the error, the trim is lowered by 500 for each sample of a drift of at most 48, a wrong day is put right by
its difference (R6, R10, R12). A LOCKED clock stays LOCKED (R9). In ACQUIRE, and in HOLDOVER or a sounding FREE handled as in ACQUIRE, a
label within 2 samples counts as good, and the third good one in a row locks the clock (R7, R8). A run of the slew that is complete has
lowered the remainder first (R10; the order is the model's choice, log entry 5). That the good count is kept in LOCKED is the model's
inference (log entry 21). -/
def Obligations.SmallLabelsSlew : Prop :=
  (∀ (c : Clock) (p : Pulse) (period : Nat) (day : BitVec 16) (second : Nat), p.airTime < 4147200000 → second ≤ 86399 →
    let l := c.measure p period day second
    let raw : Int := (p.airTime : Int) - second * 48000
    (-2073600000 ≤ l.error ∧ l.error < 2073600000) ∧ l.day = day.toNat
    ∧ (2073600000 ≤ raw → l.error = raw - 4147200000 ∧ l.expected = ((p.day : Int) + 1) % 65536)
    ∧ (raw < -2073600000 → l.error = raw + 4147200000 ∧ l.expected = ((p.day : Int) - 1) % 65536)
    ∧ (-2073600000 ≤ raw → raw < 2073600000 → l.error = raw ∧ l.expected = (p.day : Int) % 65536)
    ∧ (c.lastLabel = none → l.drift = none)
    ∧ ∀ x, c.lastLabel = some x →
        l.drift = if period ≤ x.period + 96000 ∧ x.byStep = false then some (l.error - c.remainder) else none)
  ∧ ∀ (s : State) (p : Pulse) (day : BitVec 16) (second : Nat), s.phase = .running → s.AtRest →
    (s.clock.state = .free → s.anySounding = true) →
    s.clock.pulse = some p → second ≤ 86399 →
    let x := s.slewRunAt
    let l := x.clock.measure p s.period day second
    l.error.natAbs ≤ 480 → ∃ c : Clock,
      exec (.timeLabel day second) s = .next ((({ s with clock := c } : State).cancelInterval .labelWindow).setInterval .labelGap 144000)
      ∧ c.airTime = s.clock.airTime ∧ c.remainder = l.error ∧ c.pulse = none ∧ c.rejected = s.clock.rejected
      ∧ c.day = (((s.clock.day : Int) + (day.toNat - l.expected)) % 65536).toNat
      ∧ c.trim = (match l.drift with
          | some d => if d.natAbs ≤ 48 then max (-4800) (min 4800 (s.clock.trim - 500 * d)) else s.clock.trim
          | none => s.clock.trim)
      ∧ c.offset = (x.clock.offset && decide (l.error ≠ 0)) ∧ c.lastLabel = some ⟨s.period, false⟩
      ∧ (s.clock.state = .locked → c.state = .locked ∧ c.good = s.clock.good)
      ∧ (s.clock.state ≠ .locked →
          c.good = (if l.error.natAbs ≤ 2 then min 3 ((if s.clock.state = .acquire then s.clock.good else 0) + 1) else 0)
          ∧ c.state = (if c.good = 3 then .locked else .acquire))

/-- A valid label above 480 samples, or any in FREE with no deck sounding: with no deck sounding air time is put onto the reference, the day
follows the label, the slew and OFFSET end and every air-time expiry is tested again; with a deck sounding it is slewed with OFFSET set, the
trim and a wrong day put right, and air time is left as it is. The clock is then in ACQUIRE with no good label (R6 to R9, R11, R12, R15). A
run of the slew that is complete has lowered the remainder first (R10; the order is the model's choice, log entry 5). -/
def Obligations.LargeLabelsStepOrSlew : Prop :=
  (∀ (s : State) (p : Pulse) (day : BitVec 16) (second : Nat), s.phase = .running → s.anySounding = false →
    s.clock.pulse = some p → second ≤ 86399 →
    let x := s.slewRunAt
    let l := x.clock.measure p s.period day second
    (s.clock.state = .free ∨ 480 < l.error.natAbs) → ∃ c : Clock,
      exec (.timeLabel day second) s = .next
        (((({ s with clock := c } : State).cancelInterval .labelWindow).setInterval .labelGap 144000).emit [.fireDue]).finish
      ∧ (c.airTime : Int) = ((s.clock.airTime : Int) - l.error) % 4147200000
      ∧ c.day = (day.toNat + if c.airTime < second * 48000 then 1 else 0) % 65536
      ∧ c.state = .acquire ∧ c.good = 0 ∧ c.remainder = 0 ∧ c.offset = false ∧ c.trim = s.clock.trim ∧ c.pulse = none
      ∧ c.rejected = s.clock.rejected ∧ c.lastLabel = some ⟨s.period, true⟩)
    ∧ (∀ (s : State) (p : Pulse) (day : BitVec 16) (second : Nat), s.phase = .running → s.AtRest → s.anySounding = true →
    s.clock.pulse = some p → second ≤ 86399 →
    let x := s.slewRunAt
    let l := x.clock.measure p s.period day second
    480 < l.error.natAbs → ∃ c : Clock,
      exec (.timeLabel day second) s = .next ((({ s with clock := c } : State).cancelInterval .labelWindow).setInterval .labelGap 144000)
      ∧ c.airTime = s.clock.airTime ∧ c.remainder = l.error ∧ c.offset = true ∧ c.state = .acquire ∧ c.good = 0 ∧ c.pulse = none
      ∧ c.day = (((s.clock.day : Int) + (day.toNat - l.expected)) % 65536).toNat
      ∧ c.trim = (match l.drift with
          | some d => if d.natAbs ≤ 48 then max (-4800) (min 4800 (s.clock.trim - 500 * d)) else s.clock.trim
          | none => s.clock.trim)
      ∧ c.rejected = s.clock.rejected ∧ c.lastLabel = some ⟨s.period, false⟩)

/-- 144,000 sample periods without a valid label turn LOCKED into HOLDOVER and clear the good count in ACQUIRE (R8, R9); a completed run
of 1,000 sample periods moves the slew remainder one toward 0, and at 0 OFFSET clears (R10). That the good count is kept from LOCKED to
HOLDOVER is the model's inference (log entry 21), and that a SLEW_RUN without a completed run changes nothing is its choice (log entry
9). -/
def Obligations.LabelGapsAndSlewRuns : Prop :=
  (∀ s : State, s.phase = .running → s.intervalDue .labelGap = true → exec .labelGap s = .next
    (({ s with clock := { s.clock with
      state := if s.clock.state = .locked then .holdover else s.clock.state
      good := if s.clock.state = .acquire then 0 else s.clock.good } } : State).cancelInterval .labelGap))
    ∧ (∀ s : State, s.phase = .running →
    (s.clock.remainder ≠ 0 → 1000 ≤ s.clock.slewRun → ∃ r : Int,
      (0 < s.clock.remainder → r = s.clock.remainder - 1) ∧ (s.clock.remainder < 0 → r = s.clock.remainder + 1)
      ∧ exec .slewRun s = .next { s with clock := { s.clock with
          remainder := r, slewRun := 0, offset := s.clock.offset && decide (r ≠ 0) } })
    ∧ (s.clock.remainder = 0 ∨ s.clock.slewRun < 1000 → exec .slewRun s = .next s))

/-! ### The store reader -/

/-- A completion with no read in flight or with another number changes nothing (R21); a read that ends BAD for the first time is issued
again at once with the next number and a new timeout (R26, R30); an abandoned read comes to nothing, however it ends (R31). A timeout
acts as a BAD completion (R22). -/
def Obligations.ReadsEndByTheirNumber : Prop :=
  (∀ (s : State) (n : BitVec 8) (good : Bool) (data : List Byte), s.phase = .running →
    (∀ r, s.reader.flight = some r → r.number ≠ n.toNat) → exec (.storeCompletion n good data) s = .next s)
    ∧ (∀ (s : State) (r : StoreRead), s.phase = .running → s.work = [] → s.reader.flight = some r → r.abandoned = false → r.retry = false →
    let t : State := ({ s with reader := { s.reader with
      flight := some { r with number := s.reader.nextNumber, retry := true }
      nextNumber := (s.reader.nextNumber + 1) % 256 } } : State).setInterval .readTimeout 960
    (∀ (n : BitVec 8) data, r.number = n.toNat → exec (.storeCompletion n false data) s = .next t)
    ∧ (s.intervalDue .readTimeout = true → exec .readTimeout s = .next t))
    ∧ (∀ (s : State) (r : StoreRead), s.phase = .running → s.reader.flight = some r → r.abandoned = true →
    let x : State := ({ s with reader := { s.reader with flight := none } } : State).cancelInterval .readTimeout
    (∀ (n : BitVec 8) good data, r.number = n.toNat → exec (.storeCompletion n good data) s = .next x.finish)
    ∧ (s.intervalDue .readTimeout = true → exec .readTimeout s = .next x.finish))

/-- The two reads of a header fetch (R16, R25): a directory entry of 0 ends the fetch NO_CART, another becomes the header address; a
header read ends the fetch with what the header's checks give. A retry of either that ends BAD, by completion or timeout, ends the fetch
STORE (R22, R26). -/
def Obligations.HeaderFetchReadsInTurn : Prop :=
  ∀ (s : State) (r : StoreRead) (f : FetchInProgress) (n : BitVec 8) (data : List Byte), s.phase = .running →
    s.reader.flight = some r → r.abandoned = false → s.reader.fetch = some f → r.number = n.toNat →
    let ended (o : FetchOutcome) : State := (({ s with reader := { s.reader with flight := none, fetch := none } } : State).cancelInterval
      .readTimeout).emit [.fetchEnded f o]
    (r.purpose = .directory → directoryEntry f.cart data = 0 →
      exec (.storeCompletion n true data) s = .next (ended (.failed .noCart)).finish)
    ∧ (r.purpose = .directory → directoryEntry f.cart data ≠ 0 → exec (.storeCompletion n true data) s = .next
      (({ s with reader := { s.reader with
        flight := none, fetch := some { f with header := some (directoryEntry f.cart data) } } } : State).cancelInterval .readTimeout).finish)
    ∧ (r.purpose = .header → exec (.storeCompletion n true data) s = .next (ended (readHeader f.cart data)).finish)
    ∧ (r.retry = true → (r.purpose = .directory ∨ r.purpose = .header) →
        exec (.storeCompletion n false data) s = .next (ended (.failed .store)).finish
        ∧ (s.intervalDue .readTimeout = true → exec .readTimeout s = .next (ended (.failed .store)).finish))

/-- Every header snapshot lies in the ranges of the table of 2.2 (R18 to R20). -/
def Obligations.HeaderSnapshotsAreInRange : Prop :=
  ∀ (cart : Nat) (unit : List Byte) (sn : Snapshot), readHeader cart unit = .snapshot sn →
    sn.format ≤ 3 ∧ 1 ≤ sn.length ∧ sn.length ≤ 134217727 ∧ 1 ≤ sn.elen ∧ sn.elen ≤ sn.length ∧ sn.segue ≤ sn.elen
    ∧ (∀ m, sn.fadeMark = some m → m + sn.fadeLen = sn.elen) ∧ (sn.fadeMark = none → sn.elen = sn.length)
    ∧ sn.fadeLen ≤ 480000 ∧ -240 ≤ sn.trim ∧ sn.trim ≤ 120 ∧ sn.firstBlock < 4294967296
    ∧ 1 ≤ sn.blocks ∧ sn.blocks ≤ 131072 ∧ sn.elen ≤ 1024 * sn.blocks ∧ 1024 * (sn.blocks - 1) < sn.elen

/-- A block that arrives for a sounding deck fills its slot, or leaves it FREE when it is behind the play position or at or beyond the fetch
limit; one that failed twice is FILLED with zeros, counted, and sets the STORE flag, whose first setting while LIVE makes a STORE FAULT that
waits for the other FAULTs of its sample period (R29, R68, R70, R118; the wait is the model's inference, log entry 41). The fourth failure
in a row sets the store-end mark, lowers the fetch limit to the fetch pointer, begins a fade-out of 480 samples and takes the segue as
reached, stated for a PLAYING deck with no fade and a clear segued flag (R71). -/
def Obligations.BlocksFillTheirSlots : Prop :=
  (∀ (s : State) (r : StoreRead) (d : DeckNo) (i : Fin 16) (b : Nat) (n : BitVec 8) (data : List Byte), s.phase = .running →
    s.reader.flight = some r → r.abandoned = false → r.purpose = .block d i b → r.number = n.toNat → (s.deck d).sounding = true →
    exec (.storeCompletion n true data) s = .next
      ((({ s with reader := { s.reader with flight := none } } : State).cancelInterval .readTimeout).setDeck d
        { s.deck d with
          ring := (s.deck d).ring.set i
            (if (s.deck d).fetchLimit ≤ b ∨ 1024 * (b + 1) ≤ (s.deck d).p then .free else .filled b data)
          run := 0 }).finish)
    ∧ (∀ (s : State) (r : StoreRead) (d : DeckNo) (it : Item) (i : Fin 16) (b : Nat), s.phase = .running →
    s.reader.flight = some r → r.abandoned = false → r.retry = true → r.purpose = .block d i b → (s.deck d).sounding = true →
    (s.deck d).item = some it →
    let ring := (s.deck d).ring.set i
      (if (s.deck d).fetchLimit ≤ b ∨ 1024 * (b + 1) ≤ (s.deck d).p then .free else .filled b [])
    ((s.deck d).run < 3 →
      let x : State := (({ s with reader := { s.reader with flight := none } } : State).cancelInterval .readTimeout).setDeck d
        { s.deck d with
          ring := ring, run := (s.deck d).run + 1, substituted := min 255 ((s.deck d).substituted + 1), storeFlag := true }
      let y : State := if (s.deck d).storeFlag = true then x
        else if s.isLive = true then
          { x with monitor := { s.monitor with storeFaults := s.monitor.storeFaults ++ [⟨s.period, it.group.val⟩] } }
        else x
      (∀ (n : BitVec 8) data, r.number = n.toNat → exec (.storeCompletion n false data) s = .next y.finish)
      ∧ (s.intervalDue .readTimeout = true → exec .readTimeout s = .next y.finish))
    ∧ (∀ tag, (s.deck d).run = 3 → (s.deck d).storeEnd = false → (s.deck d).state = .playing → (s.deck d).fadeIn = none →
      (s.deck d).segued = false → (s.deck d).bound = some tag → ∃ y : State,
        y.deck d = { s.deck d with
          ring := ring, run := 4, substituted := min 255 ((s.deck d).substituted + 1), storeFlag := true, storeEnd := true
          fetchLimit := min (s.deck d).fetchLimit (s.deck d).fetchPtr, state := .fading
          fadeOut := some ⟨0, 480, it.law, ⟨.faded, .store⟩⟩, segued := true }
        ∧ (∀ e : DeckNo, e ≠ d → y.deck e = s.deck e) ∧ y.mix.requests[d] = none ∧ y.records = s.records
        ∧ y.work = s.work ++ (match s.follower tag it.group with | none => [] | some f => [.followSegue f])
        ∧ (∀ (n : BitVec 8) data, r.number = n.toNat → exec (.storeCompletion n false data) s = .next y.finish)
        ∧ (s.intervalDue .readTimeout = true → exec .readTimeout s = .next y.finish)))

/-! ### Addressed notices -/

/-- A frame under the engine's own number sets DUPLICATE_STATION and is handed to no block, whatever notice it carries (R154). An
addressed notice that is neither for self nor for partner is ignored (R156); one whose sender stands outside the loader mask sets
FOREIGN and nothing else (R157). The presence of another station is recorded first: PRESENT, heard now, with 48,000 sample periods to its
loss (R160), as an ASRUN from a peer shows, which changes nothing else (R167). In WAIT_IDLE a frame only keeps the count at 0 (R142), and
while the engine itself drives the line there is none to read (the model's inference, log entry 22). -/
def Obligations.FramesAreScreened : Prop :=
  (∀ (c : Instr) (h : Header) (s : State), noticeHeader c = some h → s.phase = .running → s.AtRest →
    (s.bus.line.Reads → senderOf h = s.ownStation →
      exec c s = .next { s with bus := { s.bus with line := .waitIdle, recessive := 0, duplicate := true } })
    ∧ (s.bus.line = .waitIdle → exec c s = .next { s with bus := { s.bus with recessive := 0 } })
    ∧ (s.bus.line = .sending ∨ s.bus.line = .flagging → exec c s = .next s))
    ∧ (∀ (c : Instr) (h : Header) (s : State), addressedHeader c = some h → s.AtRest → s.Hears h →
    (s.forSelf h = false → s.forPartner h = false → exec c s = .next (s.onHearing h))
    ∧ (s.forSelf h = true ∨ s.forPartner h = true → s.masked h = false →
        exec c s = .next { s.onHearing h with bus := { (s.onHearing h).bus with foreign := true } }))
    ∧ (∀ (s : State) (h : Header) (f : AsRunFields), s.Hears h → ∃ t, exec (.peerAsrun h f) s = .next t
    ∧ t.bus = { s.bus with line := .waitIdle, recessive := 0 }
    ∧ t.peer (senderOf h) = { s.peer (senderOf h) with presence := .present, lastHeard := some s.clock.airTime }
    ∧ (∀ q, q ≠ senderOf h → t.peer q = s.peer q)
    ∧ t.intervals = (s.intervals.filter fun x => x.handle != .peerLoss (senderOf h))
        ++ [⟨.peerLoss (senderOf h), s.period + 48000⟩]
    ∧ t = { s with bus := t.bus, peers := t.peers, intervals := t.intervals } ∧ t.peers.stamps = s.peers.stamps)

/-- The tests of R36 in their order, each with its reason: a reserved tag, a field out of its range, a tag that is present, a full list. A
LOAD that one of them refuses creates no record and changes nothing of the running order; it offers one as-run record, REFUSED
with the reason, which the log stores with the next sequence, or counts as lost when it holds 32 (R36, R191). -/
def Obligations.RefusedLoadsAreLogged : Prop :=
  (∀ (s : State) (f : LoadFields), let tag := f.tag.toNat; let kind := f.kind.toNat
    let reserved : Prop := tag = 0 ∨ 65280 ≤ tag
    let bad : Prop := 3 < f.group.toNat ∨ 5 < kind ∨ 1 < f.law.toNat ∨ (kind ≤ 1 ∧ 4147200000 ≤ f.start.toNat)
      ∨ (f.latest.toNat ≠ 0xFFFFFFFF ∧ 4147200000 ≤ f.latest.toNat)
      ∨ (kind = 4 ∧ (15 < f.start.toNat / 2 ^ 24 ∨ f.start.toNat / 2 ^ 24 = s.ownStation.val ∨ f.start.toNat / 2 ^ 8 % 2 ^ 16 = 0))
      ∨ (f.breakId ≠ 0 ∧ f.group = 0)
    (reserved → s.loadRefusal f = some .reservedTag)
    ∧ (¬ reserved → bad → s.loadRefusal f = some .badField)
    ∧ (¬ reserved → ¬ bad → tag ∈ s.tags → s.loadRefusal f = some .duplicate)
    ∧ (¬ reserved → ¬ bad → tag ∉ s.tags → 48 ≤ s.records.length → s.loadRefusal f = some .full)
    ∧ (¬ reserved → ¬ bad → tag ∉ s.tags → s.records.length < 48 → s.loadRefusal f = none))
  ∧ ∀ (s : State) (h : Header) (f : LoadFields) (why : Reason), s.Takes h → s.AtRest → s.loadRefusal f = some why →
    ∃ t, exec (.load h f) s = .next t ∧ t = { s.onHearing h with log := t.log, bus := t.bus }
      ∧ (s.log.records.length < 32 → t.log.records = s.log.records ++
            [{ sequence := s.log.nextSeq, tag := f.tag.toNat, cart := f.cart.toNat, group := f.group.toNat, cls := none
               outcome := .refused, reason := why, breakId := if f.breakId.toNat = 0 then none else some f.breakId.toNat
               start := none, finish := none, aired := 0, substituted := 0, flags := {} }]
          ∧ t.log.nextSeq = (s.log.nextSeq + 1) % 256 ∧ t.log.lost = s.log.lost)
      ∧ (32 ≤ s.log.records.length → t.log.records = s.log.records ∧ t.log.nextSeq = s.log.nextSeq
          ∧ t.log.lost = min 255 (s.log.lost + 1))

/-- An accepted LOAD places one new record in HEADER_WAIT before the record it names, or at the end, with start kind, times, peer, law,
break id and lengths as received and brought into range and every other field empty; its fetch joins the header-fetch queue; its expiries
are set, those already due fire; then the break fitter is told, its start condition judged, and the record behind it judged again (R13,
R34 to R38). -/
def Obligations.AcceptedLoadsJoinTheOrder : Prop :=
  ∀ (s : State) (h : Header) (f : LoadFields), s.Takes h → s.loadRefusal f = none → s.reader.queue.length < 48 →
    let set (hd : AirHandle) (t : Option Nat) (l : List AirExpiry) : List AirExpiry := match t with
      | none => l
      | some n => l.filter (fun x => x.handle != hd) ++ (if isDue n s.now = true then [] else [⟨hd, n⟩])
    let fires (hd : AirHandle) (t : Option Nat) : List Task := match t with
      | none => []
      | some n => if isDue n s.now = true then [.fired hd (lateness n s.now)] else []
    let tag := f.tag.toNat
    ∃ (x : State) (r : CueRecord), exec (.load h f) s = .next x.finish
      ∧ x.records = insertBefore f.before.toNat r s.records
      ∧ r.tag = tag ∧ r.cart = f.cart.toNat ∧ r.group.val = f.group.toNat ∧ r.state = .headerWait ∧ r.deck = none
      ∧ readStartKind f.kind = some r.kind
      ∧ r.startTime = (if r.kind = .hardAt ∨ r.kind = .softAt then some f.start.toNat else none)
      ∧ (r.kind = .afterPeer → ∃ q : Station, q.val = loadPeerStation f ∧ r.peer = some (q, loadPeerTag f))
      ∧ (r.kind ≠ .afterPeer → r.peer = none)
      ∧ r.latest = (if f.latest.toNat = 0xFFFFFFFF then none else some f.latest.toNat) ∧ readLaw f.law = some r.law
      ∧ r.breakId = (if f.breakId.toNat = 0 then none else some f.breakId.toNat)
      ∧ r.fadeIn = min f.fadeIn.toNat 10000 * 48 ∧ r.displace = min f.displace.toNat 10000 * 48 ∧ r.duck = min 300 f.duck.toNat
      ∧ r.fadeOut = (if f.fadeOut.toNat = 65535 then none else some (min f.fadeOut.toNat 10000 * 48))
      ∧ r.triggered = false ∧ r.setAside = false ∧ r.displaced = false ∧ r.airedLive = false ∧ r.flags = {} ∧ r.snapshot = none
      ∧ r.actualStart = none ∧ r.scheduled = none ∧ r.shadowStart = none ∧ r.truncEnd = none
      ∧ x.reader = { s.reader with queue := s.reader.queue ++ [⟨.record tag, f.cart.toNat⟩] }
      ∧ x.airExpiries = set (.latestStart tag) r.latest (set (.startTime tag) r.startTime s.airExpiries)
      ∧ x.work = s.work ++ fires (.startTime tag) r.startTime ++ fires (.latestStart tag) r.latest
          ++ (if r.breakId.isSome then [.joined tag] else []) ++ [.judgeNew tag]
          ++ (match x.follower tag r.group with | none => [] | some u => [.rejudge u])
      ∧ x = { s.onHearing h with records := x.records, reader := x.reader, airExpiries := x.airExpiries, work := x.work }

/-- Binding gives the earliest QUEUED record the lowest-numbered IDLE deck, which begins priming it from block 0; a record marked triggered
then starts with LATE_START, at its shadow start if it holds one (R41, R44, R60). With no deck IDLE it takes the deck of the latest BOUND or
ARMED record, if that stands behind it, and that record is QUEUED again (R42); otherwise nothing is bound. Each binding is followed by
another test. A PRIMING deck with no block read in flight and 12 slots FILLED, or with nothing left to fetch, is ARMED and reports it; any
other deck does not (R62). -/
def Obligations.BindingTakesTheLowestIdleDeck : Prop :=
  (∀ (s : State) (r : CueRecord) (sn : Snapshot), s.records.find? (fun r => r.state == .queued) = some r → r.snapshot = some sn →
    let primed (x : Deck) : Deck := { ({} : Deck) with
      state := .priming, bound := some r.tag, item := some (itemOf r sn), fetchLimit := sn.blocks, endPos := sn.elen
      storeFlag := x.storeFlag }
    let starts : List Task := if r.triggered then [.start r.tag r.shadowStart false true] else []
    (∀ d : DeckNo, (s.deck d).state = .idle → (∀ e : DeckNo, e < d → (s.deck e).state ≠ .idle) → ∃ x : State,
      s.bind = x.emit [.bind] ∧ x.deck d = primed (s.deck d) ∧ (∀ e : DeckNo, e ≠ d → x.deck e = s.deck e)
      ∧ x.records = (s.records.map fun u => if u.tag = r.tag then { u with state := .bound, deck := some d } else u)
      ∧ x.work = s.work ++ starts)
    ∧ (∀ (v : CueRecord) (d : DeckNo), (∀ e : DeckNo, (s.deck e).state ≠ .idle) →
      s.records.reverse.find? (fun u => (u.state == .bound || u.state == .armed) && !u.triggered) = some v → v.deck = some d →
      v.tag ≠ r.tag → (v.tag ∈ ((s.records.dropWhile fun u => u.tag != r.tag).drop 1).map (·.tag) → ∃ x : State,
        s.bind = x.emit [.bind] ∧ x.deck d = primed (s.deck d) ∧ (∀ e : DeckNo, e ≠ d → x.deck e = s.deck e)
        ∧ x.records = (s.records.map fun u => if u.tag = r.tag then { u with state := .bound, deck := some d }
            else if u.tag = v.tag then { u with state := .queued, deck := none } else u)
        ∧ x.reader.flight = (s.reader.flight.map fun q => if q.ofDeck d = true then { q with abandoned := true } else q)
        ∧ x.work = s.work ++ starts)
      ∧ (v.tag ∉ ((s.records.dropWhile fun u => u.tag != r.tag).drop 1).map (·.tag) → s.bind = s)))
  ∧ (∀ s : State, ((∀ r ∈ s.records, r.state ≠ .queued)
      ∨ ((∀ e : DeckNo, (s.deck e).state ≠ .idle) ∧ ∀ r ∈ s.records, r.state ≠ .bound ∧ r.state ≠ .armed)) → s.bind = s)
  ∧ (∀ (s : State) (d : DeckNo) (tag : Nat), (s.deck d).bound = some tag →
    let full : Prop := (∀ i : Fin 16, ((s.deck d).ring[i]).isInFlight = false)
      ∧ (12 ≤ (s.deck d).ring.toList.countP Slot.isFilled ∨ (s.deck d).fetchLimit ≤ (s.deck d).fetchPtr)
    ((s.deck d).state = .priming → full → s.judgePrimed d = (s.setDeck d { s.deck d with state := .armed }).emit [.armed tag])
    ∧ ((s.deck d).state ≠ .priming ∨ ¬ full → s.judgePrimed d = s))

/-- A DROP of an unstarted record: the record leaves, DROPPED by the loader. Of an item on a PLAYING deck: a fade-out of the record
fade-out length begins in the record's law and the duck request is withdrawn. Of a tag that is not present, of a CLEARING record or
of an item in any fade-out but the store-end fade: no effect (R54, R57, R74, R99). In the store-end fade R54 gives a DROP no effect and R71
has it compared by R76: the two agree where the DROP's fade would not end the item earlier, and for the rest the statement holds whichever
of the two the part follows, a free value (log entry 36). -/
def Obligations.DropsActByTheRecordsState : Prop :=
  (∀ (s : State) (h : Header) (tag : BitVec 16) (r : CueRecord), s.Takes h → s.find tag.toNat = some r → r.unstarted = true →
    tag.toNat < 65280 → s.log.records.length < 32 → ∃ t, exec (.drop h tag) s = .next t ∧ tag.toNat ∉ t.tags
      ∧ (∃ a ∈ t.log.records, a.sequence = s.log.nextSeq ∧ a.tag = r.tag ∧ a.cart = r.cart ∧ a.outcome = .dropped
          ∧ a.reason = .byLoader ∧ a.start = none ∧ a.finish = none)
      ∧ (s.onHearing h).still = t.still)
    ∧ (∀ (s : State) (h : Header) (tag : BitVec 16) (r : CueRecord) (d : DeckNo), s.Takes h → s.find tag.toNat = some r →
    r.state = .onAir → r.deck = some d →
    (s.deck d).state = .playing → (s.deck d).fadeIn = none → 0 < r.fadeOutLen → exec (.drop h tag) s = .next
      (((s.onHearing h).setDeck d { s.deck d with
        state := .fading, fadeOut := some ⟨0, r.fadeOutLen, r.law, ⟨.faded, .byLoader⟩⟩ }).withdrawDuck d).finish)
    ∧ (∀ (s : State) (h : Header) (tag : BitVec 16), s.Takes h → s.AtRest →
    (s.find tag.toNat = none ∨ (∃ r, s.find tag.toNat = some r ∧ (r.state = .clearing
      ∨ ∃ d, r.state = .onAir ∧ r.deck = some d ∧ (s.deck d).state = .fading
        ∧ ∀ f, (s.deck d).fadeOut = some f → f.cause ≠ ⟨.faded, .store⟩))) →
    exec (.drop h tag) s = .next (s.onHearing h))
    ∧ (∀ (s : State) (h : Header) (tag : BitVec 16) (r : CueRecord) (d : DeckNo) (f : FadeOut), s.Takes h → s.AtRest →
    s.find tag.toNat = some r → r.state = .onAir → r.deck = some d → (s.deck d).state = .fading → (s.deck d).fadeOut = some f →
    f.cause = ⟨.faded, .store⟩ →
    let q := (2 * (f.pos * r.fadeOutLen) + f.len) / (2 * f.len)
    (0 < r.fadeOutLen → (f.len : Int) - f.pos ≤ (r.fadeOutLen : Int) - q → exec (.drop h tag) s = .next (s.onHearing h))
    ∧ (0 < r.fadeOutLen → (r.fadeOutLen : Int) - q < (f.len : Int) - f.pos → q < r.fadeOutLen → exec (.drop h tag) s = .next
        (if Config.storeEndTakesDrop then (((s.onHearing h).setDeck d { s.deck d with
          state := .fading, fadeIn := none, fadeOut := some ⟨q, r.fadeOutLen, r.law, ⟨.faded, .byLoader⟩⟩ }).withdrawDuck d).finish
        else s.onHearing h))
    ∧ (r.fadeOutLen = 0 ∨ (r.fadeOutLen ≤ q ∧ (r.fadeOutLen : Int) - q < (f.len : Int) - f.pos) → exec (.drop h tag) s = .next
        (if Config.storeEndTakesDrop then ((s.onHearing h).endItem d ⟨.faded, .byLoader⟩).finish else s.onHearing h)))

/-- After a CLEAR the running order holds only CLEARING records, no header fetch waits or runs, the break table is empty with
BREAK_FULL clear, no duck request is held, and no fault is latched, the decks' STORE flags among them; the monitors watch from counts of
0 while LIVE and are SUSPENDED otherwise; levels, clock and role state are as they were (R32, R55, R59, R105, R122, R140). An ON_AIR item on
a PLAYING deck without a fade is fading over 480 samples in its record's law, and a fade-out that ends within 480 samples is kept (R55),
stated for a deck that no other record names. That an emptied entry holds no old value at all is the model's choice (log entry 31). -/
def Obligations.ClearEmptiesTheEngine : Prop :=
  ∀ (s : State) (h : Header), s.Takes h → s.OrderOk → s.work = [] → ∃ t, exec (.clear h) s = .next t
    ∧ (∀ r ∈ t.records, r.state = .clearing ∧ r.tag ∈ s.tags)
    ∧ (∀ (r : CueRecord) (d : DeckNo), r ∈ s.records → r.state = .onAir → r.deck = some d → (s.deck d).bound = some r.tag →
        (∀ u ∈ s.records, u.deck = some d → u.tag = r.tag) → (∀ e : DeckNo, (s.deck e).bound = some r.tag → e = d) →
        ((s.deck d).state = .playing → (s.deck d).fadeIn = none → (s.deck d).fadeOut = none →
          (t.deck d).state = .fading ∧ (t.deck d).fadeOut = some ⟨0, 480, r.law, ⟨.faded, .cleared⟩⟩)
        ∧ (∀ f, (s.deck d).state = .fading → (s.deck d).fadeOut = some f → f.len ≤ f.pos + 480 →
          (t.deck d).state = .fading ∧ (t.deck d).fadeOut = some f))
    ∧ t.reader.queue = [] ∧ t.reader.waiting = [] ∧ t.reader.fetch = none
    ∧ (∀ e : EntryNo, t.entry e = {}) ∧ t.breaks.full = false ∧ t.breaks.reportPos = s.breaks.reportPos
    ∧ (∀ d : DeckNo, t.mix.requests[d] = none ∧ t.monitor.timers[d] = 0 ∧ (t.deck d).storeFlag = false)
    ∧ (∀ a : Fin 3, (t.monitor.groups[a]).deadAirFlag = false ∧ (t.monitor.groups[a]).overloadFlag = false
        ∧ (t.monitor.groups[a]).silence = 0 ∧ (t.monitor.groups[a]).overloadRun = 0
        ∧ (t.monitor.groups[a]).state = (if s.isLive = true then .sounding else .suspended))
    ∧ s.log.records <+: t.log.records ∧ t.clock = s.clock ∧ t.pair = s.pair ∧ t.cfg = s.cfg
    ∧ t.mix.master = s.mix.master ∧ t.mix.levels = s.mix.levels

/-- A GO starts the earliest ARMED GO record on its group, on its own deck at position 0 (R44, R45, R52, R64); one that finds none, or
reaches an engine that is not LIVE, is ignored (R52, R180). -/
def Obligations.GosStartTheEarliestArmedRecord : Prop :=
  (∀ (s : State) (h : Header) (g : Byte) (r : CueRecord) (d : DeckNo) (it : Item), s.Takes h →
    s.records.find? (fun r => r.group.val == g.toNat && r.kind == .go && r.state == .armed) = some r → s.Ready r.tag r d it →
    ∃ x : State, exec (.go h g) s = .next x.finish ∧ (s.onHearing h).Started x r.tag d it)
    ∧ (∀ (s : State) (h : Header) (g : Byte), s.Takes h → s.AtRest →
    (s.isLive = false ∨ ∀ r ∈ s.records, ¬ (r.group.val = g.toNat ∧ r.kind = .go ∧ r.state = .armed)) →
    exec (.go h g) s = .next (s.onHearing h))

/-- A LEVEL sets the level its group field names and changes nothing else; 7 is the master, and any other value names none (R86).
CLEAR_FAULTS clears the latched DEAD_AIR and OVERLOAD flags, the STORE flags and the four bus flags, and nothing else (R120, R158); a
monitor window that was complete before it is judged first (R113; the order is the model's choice, log entry 4). -/
def Obligations.LevelAndClearFaultsActAlone : Prop :=
  (∀ (s : State) (h : Header) (f : LevelFields), s.Takes h →
    let l : Level := if f.level.toInt = -32768 then .off else .tenths (max (-900) (min 0 f.level.toInt))
    let x := s.onHearing h
    (∀ hg : f.group.toNat < 4, exec (.level h f) s = .next { x with mix := { s.mix with levels := s.mix.levels.set f.group.toNat l } })
    ∧ (f.group.toNat = 7 → exec (.level h f) s = .next { x with mix := { s.mix with master := l } })
    ∧ (4 ≤ f.group.toNat → f.group.toNat ≠ 7 → exec (.level h f) s = .next x))
  ∧ (∀ (s : State) (h : Header), s.Takes h → ∃ t, exec (.clearFaults h) s = .next t
    ∧ (let x := (s.onHearing h).monitorWindowAt; (s.monitor.full = false → x = s.onHearing h)
    ∧ t.bus = { x.bus with foreign := false, busError := false, txDiscard := false, duplicate := false }
    ∧ (∀ a : Fin 3, t.monitor.groups[a] = { x.monitor.groups[a] with deadAirFlag := false, overloadFlag := false })
    ∧ (∀ d : DeckNo, t.deck d = { s.deck d with storeFlag := false })
    ∧ t = { x with bus := t.bus, monitor := { x.monitor with groups := t.monitor.groups }, decks := t.decks }))

/-- A BREAK for an id that no entry holds takes the first FREE entry, or with none FREE the first ENDED one whose id hold is clear, with its
rejoin time or the present one if that is due (R124). A re-declaration of a DECLARED or RUNNING break replaces the rejoin time, moves the
guard, keeps group, state, flags and fill status, and changes the fill only when its cart differs (R125). A BREAK is ignored for group 0 or
a group above 3, for id 0, for a rejoin time from Dlen upward, and for an id under its id hold; with every entry held it only sets
BREAK_FULL (R124, R202). -/
def Obligations.BreaksAreDeclared : Prop :=
  (∀ (s : State) (h : Header) (f : BreakFields) (e : EntryNo), s.Takes h → f.id ≠ 0 → 1 ≤ f.group.toNat → f.group.toNat ≤ 3 →
    f.rejoin.toNat < 4147200000 → (∀ i : EntryNo, ¬ ((s.entry i).holdsId = true ∧ (s.entry i).id = f.id.toNat)) →
    ((s.entry e).state = .free ∧ (∀ i : EntryNo, i < e → (s.entry i).state ≠ .free)
      ∨ (∀ i : EntryNo, (s.entry i).state ≠ .free) ∧ (s.entry e).state = .ended ∧ (s.entry e).idHold = false
        ∧ ∀ i : EntryNo, i < e → ¬ ((s.entry i).state = .ended ∧ (s.entry i).idHold = false)) →
    ∃ x : State, exec (.declareBreak h f) s = .next x.finish
      ∧ x.entry e = { state := .declared, id := f.id.toNat, group := Fin.ofNat 4 f.group.toNat
                      rejoin := if isDue f.rejoin.toNat s.now then s.now else f.rejoin.toNat
                      fillCart := if f.fill.toNat = 0 then none else some f.fill.toNat
                      fillState := if f.fill.toNat = 0 then .none else .waiting }
      ∧ (∀ i : EntryNo, i ≠ e → x.entry i = s.entry i) ∧ x.records = s.records ∧ x.decks = s.decks ∧ x.log = s.log)
    ∧ (∀ (s : State) (h : Header) (f : BreakFields) (e : EntryNo), s.Takes h → f.id ≠ 0 → 1 ≤ f.group.toNat → f.group.toNat ≤ 3 →
    f.rejoin.toNat < 4147200000 → (s.entry e).holdsId = true → (s.entry e).id = f.id.toNat →
    (∀ i : EntryNo, i < e → ¬ ((s.entry i).holdsId = true ∧ (s.entry i).id = f.id.toNat)) →
    ((s.entry e).state = .ended → s.AtRest → exec (.declareBreak h f) s = .next (s.onHearing h))
    ∧ ((s.entry e).state ≠ .ended →
      let r := if isDue f.rejoin.toNat s.now then s.now else f.rejoin.toNat
      let fill := if f.fill.toNat = 0 then none else some f.fill.toNat
      ∃ x : State, exec (.declareBreak h f) s = .next (x.emit [.fit e]).finish
        ∧ x.entry e = (if (s.entry e).fillCart = fill then { s.entry e with rejoin := r } else
            { s.entry e with
              rejoin := r, fillCart := fill, fillSnapshot := none, fillState := if fill.isSome then .waiting else .none })
        ∧ ((s.entry e).fillCart = fill → x.reader = s.reader)
        ∧ x.airExpiries = (s.airExpiries.filter fun y => y.handle != .rejoin e) ++ (if isDue r s.now then [] else [⟨.rejoin e, r⟩])
        ∧ x.work = s.work ++ (if isDue r s.now then [.fired (.rejoin e) (lateness r s.now)] else [])
        ∧ (∀ i : EntryNo, i ≠ e → x.entry i = s.entry i) ∧ x.records = s.records ∧ x.decks = s.decks ∧ x.log = s.log))
    ∧ (∀ (s : State) (h : Header) (f : BreakFields), s.Takes h → s.AtRest →
    (f.id = 0 ∨ f.group = 0 ∨ 3 < f.group.toNat ∨ 4147200000 ≤ f.rejoin.toNat →
      exec (.declareBreak h f) s = .next (s.onHearing h))
    ∧ (f.id ≠ 0 → 1 ≤ f.group.toNat → f.group.toNat ≤ 3 → f.rejoin.toNat < 4147200000 →
      (∀ i : EntryNo, (s.entry i).holdsId = true ∧ (s.entry i).id ≠ f.id.toNat) →
      exec (.declareBreak h f) s = .next { s.onHearing h with breaks := { s.breaks with full := true } }))

/-- What makes a fit run: a member that starts makes a DECLARED break RUNNING with a fit, a member or the fill record that starts in a
RUNNING break, a member that joins one, or whose fetch ends with a snapshot there, runs one (R127 to R129), as does one that leaves it, and
a fill record that leaves is counted by its tag also on another group, which is the model's choice (log entry 43), and a record that joins
under the id hold leaves NO_FIT (R138). A fill fetch ends FAILED, or READY with a fit, and an entry that does not wait for it discards it
(R126). -/
def Obligations.MembersRunTheFits : Prop :=
  (∀ (s : State) (tag id : Nat) (r : CueRecord) (e : EntryNo), s.find tag = some r → r.breakId = some id → s.entryOf id = some e →
    (s.entry e).group = r.group →
    ((s.entry e).state = .declared → r.tag ≠ 65280 + (s.entry e).id →
      s.memberStarted tag = (s.setEntry e { s.entry e with state := .running }).emit [.fit e]
      ∧ s.memberJoined tag = s ∧ s.memberReady tag = s)
    ∧ ((s.entry e).state = .running →
      s.memberStarted tag = s.emit [.fit e] ∧ s.memberJoined tag = s.emit [.fit e] ∧ s.memberReady tag = s.emit [.fit e])
    ∧ ((s.entry e).state = .ended → s.memberJoined tag = s.depart tag ⟨.dropped, .noFit⟩ ∧ s.memberStarted tag = s))
  ∧ (∀ (s : State) (tag : Nat) (r : CueRecord), s.find tag = some r →
    (r.breakId = none ∨ ∃ id, r.breakId = some id ∧ s.entryOf id = none) →
    s.memberStarted tag = s ∧ s.memberJoined tag = s ∧ s.memberReady tag = s)
  ∧ (∀ (s : State) (id : Nat) (g : Group) (fill : Bool), (s.entryOf id = none → s.memberLeft id g fill [] = s)
    ∧ ∀ e, s.entryOf id = some e →
      ((s.entry e).state = .running → ((s.entry e).group = g ∨ fill = true) → s.memberLeft id g fill [] = s.fit e)
      ∧ ((s.entry e).state ≠ .running ∨ (s.entry e).group ≠ g ∧ fill = false → s.memberLeft id g fill [] = s))
  ∧ (∀ (s : State) (e : EntryNo) (o : FetchOutcome),
    ((s.entry e).fillState ≠ .waiting → ∀ stale, s.fillFetched e stale o = s)
    ∧ ((s.entry e).fillState = .waiting →
      (∀ why, s.fillFetched e false (.failed why) = s.setEntry e { s.entry e with fillState := .failed })
      ∧ (∀ sn, s.fillFetched e false (.snapshot sn)
          = (s.setEntry e { s.entry e with fillState := .ready, fillSnapshot := some sn }).emit [.fit e])
      ∧ s.fillFetched e true o = s.askFillFetch e))

/-- The fit of a RUNNING break. A candidate is projected at the prior's segue point, a FOLLOW_PREV one at its end, and without a prior at
the present time; an ADVERT is kept when it fits whole, any other member when more than 24,000 samples remain, truncated at the rejoin time
when it is longer (R131, R132). A READY, UNPLACED fill is placed when room remains after the projected end, and SHORT says that a shortfall
is left (R133, stated where no fill record stands). That without a prior the projected end is the present time and no fill is placed is the
model's choice (log entry 17). The fill fade is judged before the plan takes the anchor's end, an order that is the model's choice (log
entry 14). The decisions are then carried out: every member to be dropped has left, DROPPED and NO_FIT, with OVERRUN_DROPS set, the
truncation ends are on their records, the projected end is kept, SHORT is as decided, and a fill to be placed stands unstarted directly
behind the prior with the fields of R40, PLACED, or is refused by a full list, which sets SHORT and leaves it UNPLACED (R40, R134). An entry
that is not RUNNING runs no fit (R128). -/
def Obligations.FitsKeepShortenAndDrop : Prop :=
  (∀ (s : State) (b : BreakEntry) (plan : FitPlan) (r : CueRecord),
    (r.snapshot = none → s.fitCandidate b plan r = plan)
    ∧ ∀ sn, r.snapshot = some sn →
      let p := match plan.prior with
        | none => s.now
        | some q => if r.kind = .followPrev then q.finish else q.segue
      let left := if isDue b.rejoin p = true then 0 else subAir b.rejoin p
      let dropped : FitPlan := { plan with drops := plan.drops ++ [r.tag] }
      let whole : FitPlan := { plan with
        truncs := plan.truncs ++ [(r.tag, none)], prior := some ⟨r.tag, addAir p sn.elen, addAir p sn.segue⟩ }
      (sn.cls = .advert → sn.elen ≤ left → s.fitCandidate b plan r = whole)
      ∧ (sn.cls = .advert → left < sn.elen → s.fitCandidate b plan r = dropped)
      ∧ (sn.cls ≠ .advert → left ≤ 24000 → s.fitCandidate b plan r = dropped)
      ∧ (sn.cls ≠ .advert → 24000 < left → sn.elen ≤ left → s.fitCandidate b plan r = whole)
      ∧ (sn.cls ≠ .advert → 24000 < left → left < sn.elen → s.fitCandidate b plan r = { plan with
          truncs := plan.truncs ++ [(r.tag, some b.rejoin)]
          prior := some ⟨r.tag, b.rejoin, addAir p (min sn.segue left)⟩ }))
  ∧ (∀ (s : State) (b : BreakEntry) (prior : Option Prior) (projected : Nat), s.fillRecord b = none →
    let gap := if isDue b.rejoin projected = true then 0 else subAir b.rejoin projected
    ((s.planFill b prior projected).place = true
        ↔ b.fillStatus = .unplaced ∧ b.fillState = .ready ∧ 0 < gap ∧ prior.isSome = true)
    ∧ ((s.planFill b prior projected).place = true → ∀ sn, b.fillSnapshot = some sn →
        (s.planFill b prior projected).short = decide (sn.elen < gap))
    ∧ ((s.planFill b prior projected).place = false → (s.planFill b prior projected).short = decide (0 < gap))
    ∧ (s.planFill b prior projected).drop = none)
  ∧ (∀ (s : State) (e : EntryNo), (s.entry e).state ≠ .running → s.fit e = s)
  ∧ (∀ (s : State) (e : EntryNo), (s.entry e).state = .running → s.OrderOk →
    let v := s.judgeFillFade e
    let plan := v.planFit (v.entry e)
    let t := s.fit e
    s.After t
    ∧ (t.entry e).projected = some (match plan.prior with | some q => q.finish | none => s.now)
    ∧ (t.entry e).overrunDrops = ((s.entry e).overrunDrops || !plan.drops.isEmpty)
    ∧ (t.entry e).state = .running ∧ (t.entry e).rejoin = (s.entry e).rejoin
    ∧ (∀ tag ∈ plan.drops, tag < 65280 → tag ∉ t.tags)
    ∧ (s.log.records.length + s.records.length ≤ 32 → ∀ tag ∈ plan.drops, ∃ a ∈ t.log.records,
        a.tag = tag ∧ a.outcome = .dropped ∧ a.reason = .noFit)
    ∧ (∀ x ∈ plan.truncs, ∀ r ∈ t.records, r.tag = x.1 → r.truncEnd = x.2)
    ∧ (let b := s.entry e
      let fill := v.planFill (v.entry e) plan.prior (match plan.prior with | some q => q.finish | none => s.now)
      (fill.place = false → (t.entry e).short = fill.short ∧ (fill.drop = none → (t.entry e).fillStatus = b.fillStatus)
        ∧ ∀ tag, fill.drop = some tag → tag ∉ t.tags)
      ∧ ∀ (q : Prior) (sn : Snapshot), fill.place = true → plan.prior = some q → b.fillSnapshot = some sn →
        (s.records.length < 48 ∨ plan.drops ≠ [] ∨ fill.drop ≠ none →
          (t.entry e).fillStatus = .placed ∧ (t.entry e).short = fill.short
          ∧ (∃ before behind, t.tags = before ++ q.tag :: (65280 + b.id) :: behind)
          ∧ ∃ r ∈ t.records, r.unstarted = true ∧ { r with state := .queued, deck := none, triggered := false, setAside := false } =
              { tag := 65280 + b.id, cart := b.fillCart.getD 0, group := b.group, kind := .afterPrev, startTime := none, peer := none
                latest := none, fadeIn := 0, law := .log, fadeOut := none, displace := 0, duck := 0, breakId := some b.id
                snapshot := some sn, state := .queued })
        ∧ (48 ≤ s.records.length → plan.drops = [] → fill.drop = none →
          (t.entry e).short = true ∧ (t.entry e).fillStatus = b.fillStatus ∧ t.tags = s.tags)))

/-! ### Taking and giving up the air -/

/-- TAKE for self in SHADOW or LISTEN, the partner's dead air by FAULT in SHADOW, the listen expiry in LISTEN, the absent watch and the
partner's loss in SHADOW make an engine take the air (R161, R166, R177, R178, R184, R185); TAKE in LIVE or for the partner alone, an expiry
that comes late, and an absent watch with the partner heard and LIVE, change nothing beyond the expiry (R177 to R179, R184). -/
def Obligations.TakeoverEventsTakeTheAir : Prop :=
  (∀ s : State, s.phase = .running →
    (∀ h, s.Takes h → s.forSelf h = true → s.pair.role ≠ .live → ∃ t, exec (.take h) s = .next t ∧ s.TookAir t)
    ∧ (∀ h (f : FaultFields), s.Hears h → s.partner = some (senderOf h) → s.pair.role = .shadow → f.kind = 1 → f.set ≠ 0 →
        1 ≤ f.group.toNat → f.group.toNat ≤ 3 → ∃ t, exec (.peerFault h f) s = .next t ∧ s.TookAir t)
    ∧ (s.intervalDue .listen = true → s.pair.role = .listen → ∃ t, exec .listenExpiry s = .next t ∧ s.TookAir t)
    ∧ (∀ q, s.intervalDue .absentWatch = true → s.pair.role = .shadow → s.partner = some q →
        ((s.peer q).presence = .absent ∨ (s.peer q).role ≠ some .live) → ∃ t, exec .absentWatch s = .next t ∧ s.TookAir t)
    ∧ (∀ q, s.intervalDue (.peerLoss q) = true → s.pair.role = .shadow → s.partner = some q →
        ∃ t, exec (.peerLoss q) s = .next t ∧ s.TookAir t))
    ∧ (∀ s : State, s.phase = .running → s.AtRest →
    (∀ h, s.Takes h → (s.pair.role = .live ∨ s.forSelf h = false) → exec (.take h) s = .next (s.onHearing h))
    ∧ (s.intervalDue .listen = true → s.pair.role ≠ .listen → exec .listenExpiry s = .next (s.cancelInterval .listen))
    ∧ (s.intervalDue .absentWatch = true → s.pair.role ≠ .shadow → exec .absentWatch s = .next (s.cancelInterval .absentWatch))
    ∧ (∀ q, s.intervalDue .absentWatch = true → s.partner = some q → (s.peer q).presence ≠ .absent → (s.peer q).role = some .live →
        exec .absentWatch s = .next (s.cancelInterval .absentWatch)))

/-- An engine that takes the air marks the record of each item then sounding TAKEN_MID and aired while LIVE; its unstarted records that
hold a set-aside mark are triggered in list order (R183, R185, R186). It hands TAKEN, a DUCK for each active local request, and a START
with the original start of each sounding item (R65, R104, R185), stated for an empty queue that has room for them. -/
def Obligations.TakingTheAirMarksWhatSounds : Prop :=
  ∀ (s : State) (d : DeckNo) (tag : Nat) (r : CueRecord) (it : Item) (st : Nat), (s.deck d).sounding = true →
    (s.deck d).bound = some tag → (s.deck d).item = some it → (s.deck d).actualStart = some st → s.find tag = some r →
    (∃ u, s.takeAir.find tag = some u ∧ u.airedLive = true ∧ u.flags.takenMid = true ∧ u.state = r.state)
    ∧ (∀ u ∈ s.takeAir.records, u.setAside = false) ∧ s.takeAir.decks = s.decks ∧ s.takeAir.tags = s.tags
    ∧ s.takeAir.work = s.work ++ ((s.records.filter fun r => r.unstarted && r.setAside).map fun r => .trigger r.tag)
    ∧ (s.bus.queue = [] →
        (allDecks.countP fun e => s.mix.requests[e].isSome) + (allDecks.countP fun e => (s.deck e).sounding) ≤ 7 →
        (∃ q ∈ s.takeAir.bus.queue, q.notice = .taken)
        ∧ (∃ q ∈ s.takeAir.bus.queue, q.notice = .start ⟨BitVec.ofNat 16 tag, BitVec.ofNat 16 r.cart, BitVec.ofNat 8 it.group.val,
            BitVec.ofNat 8 it.cls.code, BitVec.ofNat 8 (it.breakId.getD 0), BitVec.ofNat 32 st,
            BitVec.ofNat 32 (addAir st (min it.segue (s.deck d).endPos)), BitVec.ofNat 32 (addAir st (s.deck d).endPos)⟩)
        ∧ (∀ e : DeckNo, ∀ u, s.mix.requests[e] = some u → ∃ q ∈ s.takeAir.bus.queue,
            q.notice = .duck ⟨BitVec.ofNat 8 u.domain, BitVec.ofNat 16 u.depth, BitVec.ofNat 16 u.tag⟩))

/-- While SHADOW or LISTEN the partner's START starts the record of its tag, on an ARMED or BOUND deck at the catch-up position, with
COLD_START when BOUND, a segue mark at or before that position flagged and told to the follower (R83); marks one that waits for a deck,
which then holds the shadow start; and leaves a sounding one alone (R181; that a START without a start time, which R181 does not name, marks
the waiting record too and sets no shadow start is the model's inference, log entry 18; stated for a kind that displaces nothing). The
partner's END makes an unstarted record leave with outcome SHADOW, ends the item of one not aired while LIVE, and of a CLEARING one, and
leaves one aired while LIVE alone (R81, R182). A LIVE engine acts on neither. -/
def Obligations.PartnersItemsAreFollowed : Prop :=
  (∀ (s : State) (tag : Nat) (start : Option Nat), (s.isLive = true ∨ s.find tag = none) →
    s.followStart tag start = s ∧ s.followPartnerEnd tag = s)
  ∧ (∀ (s : State) (tag : Nat) (r : CueRecord), s.find tag = some r → s.perform (.seguePast tag) =
      s.emit (match s.follower tag r.group with | none => [] | some f => [.followSegue f]))
  ∧ (∀ (s : State) (tag : Nat) (r : CueRecord), s.isLive = false → s.find tag = some r →
    (∀ start, (r.state = .headerWait ∨ r.state = .queued) → s.followStart tag start = { s with records := s.records.map fun u =>
      if u.tag = tag then { u with triggered := true, shadowStart := u.shadowStart.or start } else u })
    ∧ (∀ start, (r.state = .onAir ∨ r.state = .clearing) → s.followStart tag start = s)
    ∧ (r.unstarted = true → s.followPartnerEnd tag = s.depart tag ⟨.shadow, .none⟩)
    ∧ (r.state = .onAir → r.airedLive = true → s.followPartnerEnd tag = s)
    ∧ (∀ d, (r.state = .onAir ∧ r.airedLive = false ∨ r.state = .clearing) → r.deck = some d → (s.deck d).sounding = true →
        s.followPartnerEnd tag = s.endItem d ⟨.shadow, .none⟩)
    ∧ (∀ (d : DeckNo) (it : Item) (st : Nat), (r.state = .armed ∨ r.state = .bound) → r.kind ≠ .hardAt → r.deck = some d →
        (s.deck d).item = some it →
        let x := s.followStart tag (some st)
        let p := if isDue st s.now = true then subAir s.now st else 0
        (x.deck d).state = .playing ∧ (x.deck d).p = p ∧ (x.deck d).actualStart = some (subAir s.now p)
        ∧ (x.deck d).fadeIn = (if p < it.fadeIn then some ⟨p, it.fadeIn⟩ else none)
        ∧ (x.deck d).segued = (decide (0 < p) && decide (it.segue ≤ p)) ∧ (0 < p → it.segue ≤ p → Task.seguePast tag ∈ x.work)
        ∧ (∃ u, x.find tag = some u ∧ u.state = .onAir ∧ u.actualStart = some (subAir s.now p) ∧ u.triggered = false
            ∧ u.setAside = false ∧ u.airedLive = r.airedLive
            ∧ u.flags.coldStart = (r.flags.coldStart || decide (r.state = .bound)))
        ∧ (∀ e : DeckNo, e ≠ d → x.deck e = s.deck e) ∧ x.bus = s.bus ∧ s.After x))

/-- The partner's TAKEN at a LIVE engine: the lower-numbered engine with its TAKEN window open keeps the air and repeats its TAKEN, any
other yields, and an OPENING gate that has not yet moved is CLOSED at once; while YIELDING it is ignored; in SHADOW it changes nothing
beyond the peer table, in LISTEN it ends the listen (R187, R188, R178, R109). From another station it sets only the entry's role (R167).
The window closes when its expiry fires (R185). -/
def Obligations.TakenIsAnsweredByWindowAndNumber : Prop :=
  (∀ (s : State) (h : Header), s.Hears h → let q := senderOf h
    let x : State := (s.onHearing h).modPeer q fun p => { p with role := some .live }
    (s.partner ≠ some q → exec (.peerTaken h) s = .next x)
    ∧ (s.partner = some q → s.pair.role = .live → s.pair.yielding = true → exec (.peerTaken h) s = .next x)
    ∧ (s.partner = some q → s.pair.role = .live → s.pair.yielding = false → s.hasInterval .takenWindow = true →
        s.ownStation.val < q.val → exec (.peerTaken h) s = .next ((x.hand .taken).setInterval .takenWindow 48000))
    ∧ (s.partner = some q → s.pair.role = .live → s.pair.yielding = false →
        (s.hasInterval .takenWindow = false ∨ q.val ≤ s.ownStation.val) → exec (.peerTaken h) s = .next { x with
          pair := { s.pair with
            yielding := true
            closedAt := if s.mix.gate.state = .closed ∨ s.mix.gate.state = .opening ∧ s.mix.gate.weight = 0 then some s.period
              else none }
          mix := { s.mix with gate := s.mix.gate.closeRequest } }))
    ∧ (∀ (s : State) (h : Header), s.Hears h → s.partner = some (senderOf h) →
      let x : State := (s.onHearing h).modPeer (senderOf h) fun p => { p with role := some .live }
      (s.pair.role = .shadow → exec (.peerTaken h) s = .next x)
      ∧ (s.pair.role = .listen →
          exec (.peerTaken h) s = .next (({ x with pair := { s.pair with role := .shadow } } : State).cancelInterval .listen)))
    ∧ (∀ s : State, s.phase = .running → s.intervalDue .takenWindow = true →
    ∃ t, exec .takenWindowExpiry s = .next t ∧ t.hasInterval .takenWindow = false
      ∧ t = { s with intervals := s.intervals.filter fun x => x.handle != .takenWindow })

/-- The gate reports OPEN once an opening has used weight 960 and CLOSED once a closing has used weight 0, in the sample period just mixed
(R109); at any other moment the two commands change nothing (the model's choice, log entry 9). In the sample period after the closed
report a yielding engine becomes SHADOW: gate CLOSED at weight 0, monitors SUSPENDED with their counts and the skip-silent timers at 0 and
their latched flags kept, YIELDED_MID on every sounding record (R82, R108, R121, R188). A window that was complete before is judged first
(R113, R121), and no STORE FAULT waits afterwards, those that did having been handed while LIVE (the model's inference, log entry 41). -/
def Obligations.GateEndsLeadToTheReports : Prop :=
  (∀ s : State, s.phase = .running →
    (s.mix.gate.state = .opening → 960 ≤ s.mix.gate.weight →
      exec .gateOpen s = .next { s with mix := { s.mix with gate := { s.mix.gate with state := .opened } } })
    ∧ (s.mix.gate.state = .closing → s.mix.gate.weight = 0 →
      exec .gateClosed s = .next { s with
        mix := { s.mix with gate := { s.mix.gate with state := .closed } }, pair := { s.pair with closedAt := some (s.period - 1) } })
    ∧ (s.mix.gate.state ≠ .opening ∨ s.mix.gate.weight < 960 → exec .gateOpen s = .next s)
    ∧ (s.mix.gate.state ≠ .closing ∨ s.mix.gate.weight ≠ 0 → exec .gateClosed s = .next s))
    ∧ (∀ (s : State) (n : Nat), s.phase = .running → s.pair.yielding = true → s.pair.closedAt = some n → n < s.period →
    let x := s.monitorWindowAt
    (s.monitor.full = false → x = s) ∧ ∃ t, exec .yieldToShadow s = .next t ∧ t.pair = { role := .shadow, yielding := false, closedAt := none }
      ∧ t.liveLine = false ∧ t.mix = { s.mix with gate := ⟨.closed, 0⟩ } ∧ t.decks = s.decks ∧ t.intervals = s.intervals
      ∧ (∀ d : DeckNo, t.monitor.timers[d] = 0) ∧ t.monitor.storeFaults = []
      ∧ (∀ a : Fin 3, let g := x.monitor.groups[a]; let u := t.monitor.groups[a]
          u.state = .suspended ∧ u.silence = 0 ∧ u.overloadRun = 0 ∧ u.deadAirFlag = g.deadAirFlag
            ∧ u.overloadFlag = g.overloadFlag ∧ u.window.wholeLive = false)
      ∧ t.records = s.records.map fun r => { r with flags := { r.flags with yieldedMid := r.flags.yieldedMid || r.sounding } })

/-! ### Peers -/

/-- START, SEGUE and END from a peer at the table, then at peer coupling and, for START and END of the partner, at the pair controller
(R162 to R164). -/
def Obligations.AnnouncementsUpdateTheEntry : Prop :=
  (∀ (s : State) (h : Header) (f : StartFields), s.Hears h → ∃ x : State, exec (.peerStart h f) s = .next x.finish
    ∧ (let p := s.peer (senderOf h); let tag := f.tag.toNat; let u := x.peer (senderOf h)
        ((∃ i ∈ p.items, i.tag = tag) → u.items = p.items.map fun i => if i.tag = tag then
            { i with group := f.group.toNat, start := readTime f.start, segue := readTime f.segue, finish := readTime f.finish } else i)
        ∧ ((∀ i ∈ p.items, i.tag ≠ tag) → ∃ n, u.items = p.items.drop (p.items.length - 7)
            ++ [⟨tag, f.group.toNat, readTime f.start, readTime f.segue, readTime f.finish, false, none, n⟩])
        ∧ u.ended = (p.ended.filter fun t => t != tag) ∧ u.ducks = p.ducks ∧ u.faults = p.faults ∧ u.presence = .present)
    ∧ (∀ q, q ≠ senderOf h → x.peer q = s.peer q)
    ∧ x.work = s.work ++ [.peerStart (senderOf h) f.tag.toNat (readTime f.segue)]
        ++ (if s.partner = some (senderOf h) then [.partnerStart f.tag.toNat (readTime f.start)] else [])
    ∧ x = { s.onHearing h with peers := x.peers, work := x.work })
    ∧ (∀ (s : State) (h : Header) (f : SegueFields), s.Hears h → ∃ x : State, exec (.peerSegue h f) s = .next x.finish
    ∧ (let p := s.peer (senderOf h); let tag := f.tag.toNat; let u := x.peer (senderOf h)
        ((∃ i ∈ p.items, i.tag = tag) → u.items = p.items.map fun i => if i.tag = tag then
            { i with segued := true, segueTime := readTime f.time } else i)
        ∧ ((∀ i ∈ p.items, i.tag ≠ tag) → ∃ n, u.items = p.items.drop (p.items.length - 7)
            ++ [⟨tag, f.group.toNat, none, none, none, true, readTime f.time, n⟩])
        ∧ u.ended = p.ended ∧ u.ducks = p.ducks ∧ u.faults = p.faults ∧ u.presence = .present)
    ∧ (∀ q, q ≠ senderOf h → x.peer q = s.peer q)
    ∧ x.work = s.work ++ [.peerMark (senderOf h) f.tag.toNat]
    ∧ x = { s.onHearing h with peers := x.peers, work := x.work })
    ∧ (∀ (s : State) (h : Header) (f : EndFields), s.Hears h → ∃ x : State, exec (.peerEnd h f) s = .next x.finish
    ∧ (let p := s.peer (senderOf h); let tag := f.tag.toNat; let u := x.peer (senderOf h)
        u.items = (p.items.filter fun i => i.tag != tag)
        ∧ u.ended = (if tag ∈ p.ended then p.ended else p.ended.drop (p.ended.length - 7) ++ [tag])
        ∧ u.ducks = p.ducks ∧ u.faults = p.faults ∧ u.presence = .present)
    ∧ (∀ q, q ≠ senderOf h → x.peer q = s.peer q)
    ∧ x.work = s.work ++ [.peerMark (senderOf h) f.tag.toNat]
        ++ (if s.partner = some (senderOf h) then [.partnerEnd f.tag.toNat] else [])
    ∧ x = { s.onHearing h with peers := x.peers, work := x.work })

/-- DUCK from a peer: with a depth above 0 the request of its tag is replaced, as the newest of at most 8; with depth 0 it is removed;
nothing else changes (R165). FAULT from a peer sets or clears the flag its group and kind name; one with a group above 3 or an undefined
kind brings only its sender's presence (R166); the FAULT is stated when it is not the partner's DEAD_AIR set on an air group. -/
def Obligations.PeerDucksAndFaultsAreKept : Prop :=
  (∀ (s : State) (h : Header) (f : DuckFields), s.Hears h →
    let others := (s.peer (senderOf h)).ducks.filter fun q => q.tag != f.tag.toNat
    let kept := if f.depth.toNat = 0 then others
      else others.drop (others.length - 7) ++ [⟨f.domain.toNat, f.depth.toNat, f.tag.toNat⟩]
    exec (.peerDuck h f) s = .next ((s.onHearing h).modPeer (senderOf h) fun p => { p with ducks := kept }))
  ∧ (∀ (s : State) (h : Header) (f : FaultFields), s.Hears h → s.AtRest →
    ((3 < f.group.toNat ∨ f.kind.toNat = 0 ∨ 3 < f.kind.toNat) → exec (.peerFault h f) s = .next (s.onHearing h))
    ∧ ∀ (hg : f.group.toNat < 4), 1 ≤ f.kind.toNat → f.kind.toNat ≤ 3 →
      ¬ (s.partner = some (senderOf h) ∧ f.kind = 1 ∧ f.set ≠ 0 ∧ f.group ≠ 0) →
      exec (.peerFault h f) s = .next ((s.onHearing h).modPeer (senderOf h) fun p =>
        let x := p.faults[f.group.toNat]
        let y : PeerFaults := if f.kind.toNat = 1 then { x with deadAir := decide (f.set ≠ 0) }
          else if f.kind.toNat = 2 then { x with overload := decide (f.set ≠ 0) }
          else { x with store := decide (f.set ≠ 0) }
        { p with faults := p.faults.set f.group.toNat y }))

/-- STATUS from a peer: its entry takes clock state, role state and partner, DEAD_AIR follows the monitor states, OVERLOAD and STORE are
only ever cleared, for group 0 the STORE flag alone, and no other entry changes, whichever station sends it; from the partner, LIVE ends a
LISTEN, and a DEAD_AIR newly set makes a SHADOW engine take the air (R167, R178, R184). -/
def Obligations.PeerStatusUpdatesTheEntry : Prop :=
  ∀ (s : State) (h : Header) (f : StatusFields), s.Hears h → let q := senderOf h; let p := s.peer q
    (∃ t, exec (.peerStatus h f) s = .next t ∧ (t.peer q).presence = .present ∧ (t.peer q).lastHeard = some s.clock.airTime
      ∧ (t.peer q).clock = some (statusClock f) ∧ (t.peer q).role = statusRole f ∧ (t.peer q).partner = statusPartner f
      ∧ (∀ a : Fin 3, let g : Fin 4 := a.succ
          ((t.peer q).faults[g]).deadAir = statusDeadAir f a
          ∧ ((t.peer q).faults[g]).overload = (p.faults[g].overload && statusOverload f a)
          ∧ ((t.peer q).faults[g]).store = (p.faults[g].store && statusStore f))
      ∧ (t.peer q).faults[0] = { p.faults[0] with store := p.faults[0].store && statusStore f }
      ∧ (t.peer q).items = p.items ∧ (t.peer q).ended = p.ended ∧ (t.peer q).ducks = p.ducks
      ∧ (∀ u, u ≠ q → t.peer u = s.peer u)
      ∧ (s.partner ≠ some q → s.AtRest → t = { s.onHearing h with peers := t.peers }))
    ∧ (s.partner = some q → s.pair.role = .listen → statusRole f = some .live →
      (∀ a : Fin 3, (p.faults[a.succ]).deadAir = true ∨ statusDeadAir f a = false) → ∃ t, exec (.peerStatus h f) s = .next t
      ∧ t.pair = { s.pair with role := .shadow } ∧ t.hasInterval .listen = false)
    ∧ (s.partner = some q → s.pair.role = .shadow →
      (∃ a : Fin 3, (p.faults[a.succ]).deadAir = false ∧ statusDeadAir f a = true) →
      ∃ t, exec (.peerStatus h f) s = .next t ∧ s.TookAir t)

/-- The loss of a station: LOST, its items, ended tags and duck requests gone, its clock state NONE, its role, partner and fault flags
kept; the records that waited on it are triggered in list order (R161, R172). The loss of the partner stops a yield: the gate opens again
from its present weight, TAKEN is handed and its window moved (R188); in LISTEN, and in LIVE without a yield, it does nothing more (R178,
R184). In SHADOW the engine takes the air, which is stated with the other takeover events. -/
def Obligations.PeerLossEmptiesTheEntry : Prop :=
  ∀ (s : State) (q : Station), s.phase = .running → s.work = [] → s.intervalDue (.peerLoss q) = true →
    let x : State := (((s.cancelInterval (.peerLoss q)).modPeer q fun p =>
        { p with presence := .lost, items := [], ended := [], ducks := [], clock := none }).emit
      ((s.records.filter fun r => r.kind == .afterPeer && r.unstarted && !r.triggered && r.scheduled.isNone
        && (match r.peer with | some (st, _) => st == q | none => false)).map fun r => .trigger r.tag)).settleWork
    x.pair = s.pair ∧ x.mix.gate = s.mix.gate
    ∧ ((s.partner ≠ some q ∨ s.pair.role = .listen ∨ s.pair.role = .live ∧ s.pair.yielding = false) →
      exec (.peerLoss q) s = .next x.finish)
    ∧ (s.partner = some q → s.pair.role = .live → s.pair.yielding = true → exec (.peerLoss q) s = .next
      ((({ x with
        pair := { s.pair with yielding := false, closedAt := none }
        mix := { x.mix with gate := s.mix.gate.openRequest } } : State).hand .taken).setInterval .takenWindow 48000).finish)

/-! ### The cue bus -/

/-- Ten recessive bit times make the line IDLE, whatever they follow but a frame the engine is sending: that a frame being received or an
error flag ends inside the same command is the model's choice (log entry 23). An enabled controller on an idle line begins the head of its
queue, and begins nothing otherwise (R142, R144); an expiry of the pair controller that falls due in the same sample period is taken before,
so that the first frame after the start-up listen is the TAKEN of an engine that takes the air (R201; that FRAME_BEGIN takes it itself is
the model's choice, log entry 4). Lost arbitration: the line is received, no notice is in flight, the notice keeps its place and its error
count, a held STATUS becomes the content of the queued one (R145, R151). -/
def Obligations.FramesBeginOnAnIdleLine : Prop :=
  (∀ s : State, s.phase = .running →
    ((s.bus.line = .waitIdle ∨ s.bus.line = .receiving) →
      exec .lineIdle s = .next { s with bus := { s.bus with line := .idle, recessive := 10 } })
    ∧ (s.bus.line = .flagging →
      exec .lineIdle s = .next { s.endFlag with bus := { s.endFlag.bus with line := .idle, recessive := 10 } })
    ∧ ((s.bus.line = .idle ∨ s.bus.line = .sending) → exec .lineIdle s = .next s)
    ∧ (let x := s.pairFirst
      (s.intervalDue .listen = false → s.intervalDue .absentWatch = false → x = s)
      ∧ (s.intervalDue .listen = true → s.intervalDue .absentWatch = false → s.pair.role = .listen → s.TookAir x)
      ∧ (∀ q, s.intervalDue .listen = false → s.intervalDue .absentWatch = true → s.pair.role = .shadow → s.partner = some q →
        ((s.peer q).presence = .absent ∨ (s.peer q).role ≠ some .live) → s.TookAir x)
      ∧ (∀ q l, x.bus.send = .enabled → x.bus.line = .idle → x.bus.queue = q :: l →
        exec .frameBegin s = .next { x with bus := { x.bus with line := .sending, flight := some q.order } })
      ∧ (x.bus.send ≠ .enabled ∨ x.bus.line ≠ .idle ∨ x.bus.queue = [] → exec .frameBegin s = .next x)))
    ∧ (∀ (s : State) (q : Queued), s.phase = .running → s.bus.line = .sending → s.bus.flight = some q.order →
    s.bus.queue.find? (fun x => x.order == q.order) = some q → exec .arbitrationLost s = .next { s with bus := { s.bus with
      line := .receiving, flight := none, held := none
      queue := match s.bus.held with
        | none => s.bus.queue
        | some f => s.bus.queue.map fun x => match x.notice with
          | .status _ => { x with notice := .status f }
          | _ => x } })

/-- A bit error makes the line FLAGGING, in which 8 dominant bits are driven; the error run and the error count of the notice in flight are
one higher (R146). After the flag the line waits for idle and no notice is in flight; that the notice counts as in flight until then, and
that the flag ends with the sample period or with the ten recessive bit times, is the model's choice (log entry 23). A notice with fewer
than four bit errors keeps its place, and a held STATUS becomes the content of the queued one; one with four leaves, BUS_ERROR is set, and a
held STATUS joins (R146, R147, R151). The sixteenth bit error in a row makes the bus QUIET for 480,000 sample periods (R148), after which
every error count and the error run are 0 and sending is ENABLED, as it is at the end of the start-up listen (R201). -/
def Obligations.BitErrorsAreCounted : Prop :=
  (∀ (s : State) (q : Queued), s.phase = .running → s.bus.line = .sending → s.bus.flight = some q.order →
    s.bus.queue.find? (fun x => x.order == q.order) = some q →
    exec .bitError s = .next { s with bus := { s.bus with
      line := .flagging, recessive := 0, errorRun := min 16 (s.bus.errorRun + 1)
      queue := s.bus.queue.map fun x => if x.order = q.order then { x with errors := x.errors + 1 } else x } })
    ∧ (∀ (s : State) (q : Queued), s.bus.line = .flagging → s.bus.flight = some q.order →
      s.bus.queue.find? (fun x => x.order == q.order) = some q →
      (q.errors < 4 → let w : State := { s with bus := { s.bus with
          line := .waitIdle, recessive := 0, flight := none, held := none
          queue := match s.bus.held with
            | none => s.bus.queue
            | some f => replaceStatus f s.bus.queue } }
        (s.bus.errorRun ≠ 16 → s.endFlag = w)
        ∧ (s.bus.errorRun = 16 → s.endFlag =
          ({ w with bus := { w.bus with send := .quiet, busError := true } } : State).setInterval .quiet 480000))
      ∧ (4 ≤ q.errors → let t := s.endFlag
        t.bus.busError = true ∧ t.bus.line = .waitIdle ∧ t.bus.recessive = 0 ∧ t.bus.flight = none ∧ t.bus.held = none
        ∧ (∀ x ∈ t.bus.queue, x.order ≠ q.order ∨ s.bus.handed ≤ x.order)
        ∧ (s.bus.queue.length ≤ 8 → List.Sublist (s.bus.queue.filter fun x => x.order != q.order) t.bus.queue)
        ∧ (∀ f, s.bus.held = some f → s.bus.queue.length ≤ 8 → ∃ x ∈ t.bus.queue, x.notice = .status f ∧ x.errors = 0)
        ∧ t.bus.send = (if s.bus.errorRun = 16 then .quiet else s.bus.send)
        ∧ (s.bus.errorRun = 16 → ⟨.quiet, s.period + 480000⟩ ∈ t.intervals)
        ∧ t.log.records = s.log.records ∧ t.records = s.records ∧ t.decks = s.decks))
    ∧ (∀ s : State, s.bus.line = .flagging → s.sentBits = some [false, false, false, false, false, false, false, false])
    ∧ (∀ s : State, s.phase = .running →
    (s.intervalDue .quiet = true → s.bus.send = .quiet → exec .quietExpiry s = .next
      (({ s with bus := { s.bus with
        send := .enabled, errorRun := 0, queue := s.bus.queue.map fun x => { x with errors := 0 } } } : State).cancelInterval .quiet))
    ∧ (s.intervalDue .startUpListen = true → s.bus.send = .held → exec .startUpListenExpiry s = .next
      (({ s with bus := { s.bus with send := .enabled } } : State).cancelInterval .startUpListen)))

/-- A complete frame: its notice leaves the queue, every other keeps its place, at most one newly offered ASRUN joins behind them, the
error run ends, the line waits for idle; a complete ASRUN takes the log's oldest record with it (R149, R192, R194). Stated with no STATUS
held. -/
def Obligations.CompleteFramesLeaveTheQueue : Prop :=
  ∀ (s : State) (q : Queued), s.phase = .running → s.bus.line = .sending → s.bus.flight = some q.order →
    s.bus.queue.find? (fun x => x.order == q.order) = some q → s.bus.held = none → ∃ t, exec .frameComplete s = .next t
      ∧ t.bus.flight = none ∧ t.bus.errorRun = 0 ∧ t.bus.line = .waitIdle ∧ t.bus.recessive = 0 ∧ t.bus.busError = s.bus.busError
      ∧ (let rest := s.bus.queue.filter (fun x => x.order != q.order);
          t.bus.queue = rest
          ∨ rest.length < 4 ∧ ∃ a ∈ t.log.records.head?, t.log.offer = some a.sequence
              ∧ t.bus.queue = insertQueued ⟨.asrun (asRunFields a), s.bus.handed, 0⟩ rest
              ∧ t.bus.queue.Perm (⟨.asrun (asRunFields a), s.bus.handed, 0⟩ :: rest) ∧ List.Sublist rest t.bus.queue)
      ∧ (q.notice.isAsrun = false → t.log.records = s.log.records)
      ∧ (q.notice.isAsrun = true → t.log.records = s.log.records.drop 1)
      ∧ t = { s with bus := t.bus, log := t.log }

/-- Bits that a check of R153 discards leave the line waiting for idle and change nothing else; a well-formed frame of another station
whose kind and length name no notice brings only its sender's presence (R153, R155, R160), and one under the engine's own number sets
DUPLICATE_STATION (R154). Bits that carry a notice act as that notice's command does (R155). In WAIT_IDLE no frame is read (R142), and
while the engine itself drives the line there is none to read (the model's inference, log entry 22). -/
def Obligations.DiscardedFramesChangeOnlyTheLine : Prop :=
  ∀ (s : State) (bits : List BusBit), s.phase = .running → s.AtRest →
    ((s.bus.line.Reads ∨ s.bus.line = .waitIdle) → (∀ f, readFrame bits ≠ .wellFormed f) → exec (.frameNotHanded bits) s = .next
      { s with bus := { s.bus with line := .waitIdle, recessive := 0 } })
    ∧ (s.bus.line.Reads → ∀ f, readFrame bits = .wellFormed f → senderOf f.header = s.ownStation →
        exec (.frameNotHanded bits) s = .next { s with bus := { s.bus with line := .waitIdle, recessive := 0, duplicate := true } })
    ∧ (∀ f n, readFrame bits = .wellFormed f → readNotice f.kind.toNat f.payload = some n →
        exec (.frameNotHanded bits) s = exec (n.command f.header) s)
    ∧ (s.bus.line.Reads → ∀ f, readFrame bits = .wellFormed f → readNotice f.kind.toNat f.payload = none →
        senderOf f.header ≠ s.ownStation → exec (.frameNotHanded bits) s = .next (s.onHearing f.header))
    ∧ (s.bus.line = .waitIdle → ∀ f, readFrame bits = .wellFormed f →
        exec (.frameNotHanded bits) s = .next { s with bus := { s.bus with recessive := 0 } })
    ∧ ((s.bus.line = .sending ∨ s.bus.line = .flagging) → exec (.frameNotHanded bits) s = .next s)

/-- The beacon is set again for 12,000 sample periods and a STATUS of the present moment is handed (R175, R176). It reports the first
RUNNING entry after the report position, counting upward and wrapping, with its flags, countdown and gap, and the position moves there; with
none RUNNING it reports nothing and the position stays (R139, R203). It joins behind the notices of its own and lower classes where none is
a STATUS and there is room; a full queue discards it, or gives up its newest notice of a higher class (R150, R152); it replaces the content
of a queued STATUS that is not in flight, and is held while that one is (R151). The rejoin guards that are due act before it, since no
RUNNING entry's rejoin time ever tests due in a STATUS (R139; that the beacon takes them itself is the model's choice, log entry 4). -/
def Obligations.BeaconHandsAStatus : Prop :=
  ∀ u : State, u.phase = .running → u.intervalDue .beacon = true → let s := u.guardsFirst
    ((∀ x ∈ u.airExpiries, x.handle.ofRecord = false → isDue x.target u.now = false) → s = u) ∧ ∃ (t : State) (f : StatusFields),
    exec .statusBeacon u = .next t
      ∧ f.head = s.statusHead ∧ f.decks = s.deckWord ∧ f.groups = s.groupWord ∧ f.recordCount = BitVec.ofNat 8 s.records.length
      ∧ f.logCount = BitVec.ofNat 8 s.log.records.length ∧ f.lostCount = BitVec.ofNat 8 s.log.lost
      ∧ f.partner = BitVec.ofNat 8 (match s.partner with | none => 255 | some q => q.val)
      ∧ f.rejected = BitVec.ofNat 8 s.clock.rejected ∧ f.trim = BitVec.ofInt 16 s.clock.trim ∧ f.day = BitVec.ofNat 16 s.clock.day
      ∧ ((∀ e : EntryNo, (s.entry e).state ≠ .running) → f.report = none ∧ t.breaks = s.breaks)
      ∧ (∀ e : EntryNo, (s.entry e).state = .running →
          (∀ u : EntryNo, (s.entry u).state = .running → (e - (s.breaks.reportPos + 1)).val ≤ (u - (s.breaks.reportPos + 1)).val) →
          t.breaks = { s.breaks with reportPos := e }
          ∧ f.report = some {
              id := BitVec.ofNat 8 (s.entry e).id
              flags := BitVec.ofBool (s.entry e).short ++ BitVec.ofBool (s.entry e).overrunDrops ++ (0 : BitVec 4)
                ++ BitVec.ofNat 2 (s.entry e).group.val
              countdown := BitVec.ofNat 32 (subAir (s.entry e).rejoin s.now)
              gap := BitVec.ofNat 32 (match (s.entry e).projected with
                | none => 0
                | some p => if isDue (s.entry e).rejoin p = true then 0 else subAir (s.entry e).rejoin p) })
      ∧ t.intervals = (s.intervals.filter fun x => x.handle != .beacon) ++ [⟨.beacon, s.period + 12000⟩]
      ∧ ((∀ q ∈ s.bus.queue, q.notice.isStatus = false) →
          (s.bus.queue.length < 8 → t.bus = { s.bus with
              queue := s.bus.queue.takeWhile (fun q => decide (q.notice.cls ≤ 4)) ++ ⟨.status f, s.bus.handed, 0⟩
                :: s.bus.queue.dropWhile (fun q => decide (q.notice.cls ≤ 4))
              handed := s.bus.handed + 1 })
          ∧ (8 ≤ s.bus.queue.length → let last := (s.bus.queue.filter fun q => s.bus.flight != some q.order).getLast?
            ((∀ q, last = some q → q.notice.cls ≤ 4) → t.bus = { s.bus with txDiscard := true })
            ∧ (∀ q, last = some q → 4 < q.notice.cls → (∃ y ∈ t.bus.queue, y.notice = .status f)
                ∧ t.bus.txDiscard = (s.bus.txDiscard || !q.notice.isAsrun))))
      ∧ (∀ q, s.bus.queue.find? (·.notice.isStatus) = some q →
          (s.bus.flight = some q.order → t.bus = { s.bus with held := some f })
          ∧ (s.bus.flight ≠ some q.order → t.bus.queue = replaceStatus f s.bus.queue ∧ t.bus.held = s.bus.held))
      ∧ t.decks = s.decks ∧ t.records = s.records ∧ t.clock = s.clock ∧ t.peers = s.peers

/-! ### Air-time expiries -/

/-- A LIVE engine's ARMED record starts on its deck at position 0 at its latest start, at its scheduled start, and, for a SOFT_AT record
with no predecessor, at its start time (R13, R44 to R47, R51, R53, R64, R171). Stated for an expiry that is the only one due. -/
def Obligations.DueExpiriesStartArmedRecords : Prop :=
  ∀ (s : State) (tag : Nat) (r : CueRecord) (d : DeckNo) (it : Item) (n : Nat), s.phase = .running → s.Ready tag r d it →
    (s.delivered (.latestStart tag) = [⟨.latestStart tag, n⟩] → ∃ x : State,
      exec (.latestStartExpiry tag) s = .next x.finish ∧ (s.cancelAir (.latestStart tag)).Started x tag d it)
    ∧ (s.delivered (.scheduledStart tag) = [⟨.scheduledStart tag, n⟩] → ∃ x : State,
      exec (.scheduledStartExpiry tag) s = .next x.finish ∧ (s.cancelAir (.scheduledStart tag)).Started x tag d it)
    ∧ (s.delivered (.startTime tag) = [⟨.startTime tag, n⟩] → r.kind = .softAt → s.predecessor tag r.group = none → ∃ x : State,
      exec (.startTimeExpiry tag) s = .next x.finish ∧ (s.cancelAir (.startTime tag)).Started x tag d it)

/-- A HARD_AT record's start time, fired in a LIVE engine: the unstarted records of its group that stand earlier leave, DROPPED and
OVERTAKEN, before the record answers its trigger, for which a waiting record is marked at once (R44, R46), and every other sounding record
of the group gets a LOG fade-out of the displace fade length, cause FADED and DISPLACED, stated for a PLAYING deck with no fade that no
other record names. The log entries are stated for room enough in the log; the tag of a fill record is the fitter's to give again and is
left out of the first clause. -/
def Obligations.HardStartsOvertake : Prop :=
  ∀ (s : State) (tag n : Nat) (r : CueRecord), s.phase = .running → s.isLive = true → s.find tag = some r → r.unstarted = true →
    r.kind = .hardAt → r.displaced = false → s.delivered (.startTime tag) = [⟨.startTime tag, n⟩] →
    ∃ x : State, exec (.startTimeExpiry tag) s = .next (x.emit [.answer tag]).finish ∧ s.After x
      ∧ (∀ u ∈ s.records.takeWhile (fun u => u.tag != tag), u.unstarted = true → u.group = r.group → u.tag < 65280 → u.tag ∉ x.tags)
      ∧ (r.state = .headerWait ∨ r.state = .queued → tag < 65280 → ∀ u ∈ x.records, u.tag = tag → u.triggered = true)
      ∧ (s.OrderOk → ∀ (u : CueRecord) (d : DeckNo), u ∈ s.records → u.tag ≠ tag → u.sounding = true → u.group = r.group →
          u.deck = some d →
          0 < r.displace → (s.deck d).state = .playing → (s.deck d).fadeIn = none → (s.deck d).fadeOut = none →
          (s.deck d).bound = some u.tag → (∀ v ∈ s.records, v.deck = some d → v = u) →
          (∀ e : DeckNo, (s.deck e).bound = some u.tag → e = d) →
          (x.deck d).state = .fading ∧ (x.deck d).fadeOut = some ⟨0, r.displace, .log, ⟨.faded, .displaced⟩⟩
            ∧ x.mix.requests[d] = none)
      ∧ (s.OrderOk → s.log.records.length + 2 * s.records.length ≤ 32 → ∀ u ∈ s.records.takeWhile (fun u => u.tag != tag),
          u.unstarted = true → u.group = r.group → (∀ d : DeckNo, (s.deck d).bound = some u.tag → (s.deck d).sounding = false) →
          ∃ a ∈ x.log.records, a.tag = u.tag ∧ a.outcome = .dropped ∧ a.reason = .overtaken)

/-- The rejoin guard ends the break: the entry is ENDED with its id held, its fill snapshot and projected end are gone, its flags kept, and
no unstarted member or fill stays in the running order; every sounding one gets a fade-out of 480 samples, cause TRUNCATED, stated for a
PLAYING deck with no fade that no other record names, the only deck bound to it; the end of the id hold is set at R + 480 (R137). That the
ENDED entry's fill snapshot state is NONE and its fill fade absent is the model's choice (log entry 48). The end of the id hold clears the
hold and nothing else (R138); before its time the command changes nothing (the model's choice, log entry 9). The fill fade gives the fill's
PLAYING deck a fade-out of its length, entering at the expiry's lateness, cause TRUNCATED (R135). -/
def Obligations.BreakExpiriesActInTurn : Prop :=
  (∀ (s : State) (e : EntryNo) (n : Nat), s.phase = .running → s.OrderOk → s.delivered (.rejoin e) = [⟨.rejoin e, n⟩] →
    ((s.entry e).state = .declared ∨ (s.entry e).state = .running) → ∃ x : State, exec (.rejoinGuard e) s = .next x.finish
      ∧ (x.entry e).state = .ended ∧ (x.entry e).idHold = true ∧ (x.entry e).id = (s.entry e).id
      ∧ (x.entry e).fillState = .none ∧ (x.entry e).fillSnapshot = none ∧ (x.entry e).fillFade = none
      ∧ (x.entry e).projected = none ∧ (x.entry e).short = (s.entry e).short ∧ (x.entry e).overrunDrops = (s.entry e).overrunDrops
      ∧ (∀ r ∈ s.records, r.unstarted = true → (s.entry e).isMember r = true ∨ (s.entry e).isFill r = true → r.tag ∉ x.tags)
      ∧ (∀ (r : CueRecord) (d : DeckNo), r ∈ s.records → r.sounding = true → (s.entry e).isMember r = true ∨ (s.entry e).isFill r = true →
          r.deck = some d → (s.deck d).state = .playing → (s.deck d).fadeIn = none → (s.deck d).fadeOut = none →
          (s.deck d).bound = some r.tag → (∀ v ∈ s.records, v.deck = some d → v = r) →
          (∀ e' : DeckNo, (s.deck e').bound = some r.tag → e' = d) →
          (x.deck d).state = .fading ∧ (x.deck d).fadeOut = some ⟨0, 480, r.law, ⟨.truncated, .none⟩⟩)
      ∧ (isDue (addAir (s.entry e).rejoin 480) s.now = false → ⟨.idHold e, addAir (s.entry e).rejoin 480⟩ ∈ x.airExpiries)
      ∧ s.After x)
    ∧ (∀ (s : State) (e : EntryNo), s.phase = .running → s.AtRest →
    (∀ n, s.delivered (.idHold e) = [⟨.idHold e, n⟩] →
      exec (.idHoldExpiry e) s = .next ((s.cancelAir (.idHold e)).setEntry e { s.entry e with idHold := false }))
    ∧ ((∀ x ∈ s.airExpiries, x.handle = .idHold e → isDue x.target s.now = false) → exec (.idHoldExpiry e) s = .next s))
    ∧ (∀ (s : State) (e : EntryNo) (n : Nat) (f : FillFade) (r : CueRecord) (d : DeckNo), s.phase = .running →
    s.delivered (.fillFade e) = [⟨.fillFade e, n⟩] → (s.entry e).fillFade = some f → s.fillRecord (s.entry e) = some r →
    r.deck = some d → (s.deck d).state = .playing → (s.deck d).fadeIn = none → lateness n s.now < f.len →
    exec (.fillFadeExpiry e) s = .next
      ((((s.cancelAir (.fillFade e)).setEntry e { s.entry e with fillFade := some { f with begun := true } }).setDeck d
        { s.deck d with state := .fading, fadeOut := some ⟨lateness n s.now, f.len, r.law, ⟨.truncated, .none⟩⟩ }).withdrawDuck
        d).finish)

/-! ### Events at a deck -/

/-- The segue mark: the flag is set, SEGUE with the mark's air time is handed while LIVE, and the follower on the group is told (R72).
Fade marks at the position are taken before it (R66). -/
def Obligations.SegueMarkIsReachedOnce : Prop :=
  ∀ (s : State) (d : DeckNo) (tag : Nat) (it : Item) (st : Nat), s.phase = .running → (s.deck d).sounding = true →
    (s.deck d).bound = some tag → (s.deck d).item = some it → (s.deck d).actualStart = some st → it.segue ≤ (s.deck d).p →
    ((s.deck d).segued = false → (s.deck d).fadeMarkDue = false → (s.deck d).truncDue = false → exec (.segueMark d) s = .next
      ((((s.setDeck d { s.deck d with segued := true }).handLive
        (.segue ⟨BitVec.ofNat 16 tag, BitVec.ofNat 8 it.group.val, BitVec.ofNat 32 (addAir st it.segue)⟩)).emit
        (match s.follower tag it.group with | none => [] | some f => [.followSegue f])).finish))
    ∧ ((s.deck d).segued = false → exec (.segueMark d) s = .next ((s.fadeMarksFirst d).segueMarkAt d).finish)
    ∧ ((s.deck d).segued = true → s.AtRest → exec (.segueMark d) s = .next s)

/-- The fade mark and the beginning of a truncation fade on a PLAYING deck with no fade: the fade-out begins at the distance passed, in
the record's law, cause COMPLETE or TRUNCATED, and the duck request is withdrawn (R74, R77, R78, R99). A truncation fade of which no
length is left ends the item at once, with a segue mark at the position taken first (R72, R74; the model's choice, log entry 34). -/
def Obligations.FadeMarksBeginFades : Prop :=
  ∀ (s : State) (d : DeckNo) (it : Item), s.phase = .running → (s.deck d).state = .playing → (s.deck d).fadeIn = none →
    (s.deck d).item = some it →
    (∀ m, it.fadeMark = some m → m ≤ (s.deck d).p → m < (s.deck d).endPos → (s.deck d).fadeMarkDone = false →
      (s.deck d).p - m < it.fadeLen → exec (.fadeMark d) s = .next ((s.setDeck d { s.deck d with
        state := .fading, fadeMarkDone := true
        fadeOut := some ⟨(s.deck d).p - m, it.fadeLen, it.law, ⟨.complete, .none⟩⟩ }).withdrawDuck d).finish)
    ∧ (∀ f, (s.deck d).trunc = some f → f.begin_ ≤ (s.deck d).p → (s.deck d).p - f.begin_ < f.len →
      exec (.truncationFadeBegin d) s = .next ((s.setDeck d { s.deck d with
        state := .fading, trunc := none
        fadeOut := some ⟨(s.deck d).p - f.begin_, f.len, it.law, ⟨.truncated, .none⟩⟩ }).withdrawDuck d).finish)
    ∧ (∀ f, (s.deck d).trunc = some f → f.begin_ ≤ (s.deck d).p → f.len ≤ (s.deck d).p - f.begin_ →
      exec (.truncationFadeBegin d) s = .next
        (((s.setDeck d { s.deck d with trunc := none }).segueMarkAt d).endItem d ⟨.truncated, .none⟩).finish)

/-- A fade-out request taken during a fade-in enters at its equivalent point, or at its own entry position when that is larger, and one
taken during a fade-out takes over only if it ends the item earlier; a request of length 0 always does (R75, R76). A fade-out that ends
within 480 samples is kept at a CLEAR, and any other item gets one of 480 samples (R55). -/
def Obligations.FadeRequestsCompareByTheirEnds : Prop :=
  ∀ (s : State) (d : DeckNo) (len entry : Nat) (law : Law) (c : Cause),
    ((s.deck d).state = .playing → ∀ f, (s.deck d).fadeIn = some f →
      s.requestFade d len law c entry = s.enterFade d len law c (max ((2 * ((f.len - f.pos) * len) + f.len) / (2 * f.len)) entry))
    ∧ ((s.deck d).state = .fading → ∀ f, (s.deck d).fadeOut = some f →
      let q := max ((2 * (f.pos * len) + f.len) / (2 * f.len)) entry
      (len = 0 → s.requestFade d len law c entry = s.endItem d c)
      ∧ (0 < len → (len : Int) - q < (f.len : Int) - f.pos → q < len → s.requestFade d len law c entry =
          (s.setDeck d { s.deck d with state := .fading, fadeIn := none, fadeOut := some ⟨q, len, law, c⟩ }).withdrawDuck d)
      ∧ (0 < len → (f.len : Int) - f.pos ≤ (len : Int) - q → s.requestFade d len law c entry = s))
    ∧ ((∀ f, (s.deck d).fadeOut = some f → f.pos + 480 < f.len) → s.clearFade d law = s.requestFade d 480 law ⟨.faded, .cleared⟩ 0)
    ∧ (∀ f, (s.deck d).fadeOut = some f → f.len ≤ f.pos + 480 → s.clearFade d law = s)

/-- The end of a fade-in and the entry into a block: the fade-in is gone; the slots behind are FREE, and a block that the ring does not
hold is passed over (R66, R69, R73). That the slot of a passed block whose read is in flight stays as it is until the read ends is the
model's inference (log entry 15). -/
def Obligations.FadeInEndsAndBlocksAreEntered : Prop :=
  ∀ (s : State) (d : DeckNo), s.phase = .running →
    (∀ f, (s.deck d).fadeIn = some f → f.len ≤ f.pos → exec (.fadeInEnd d) s = .next (s.setDeck d { s.deck d with fadeIn := none }))
    ∧ ((s.deck d).sounding = true → (s.deck d).p < (s.deck d).endPos → (s.deck d).playBlock ≠ (s.deck d).p / 1024 →
      ∃ u : Deck, exec (.blockEntered d) s = .next (s.setDeck d u).finish
        ∧ (∀ i : Fin 16, u.ring[i] = (match (s.deck d).ring[i] with
            | .filled k a => if k < (s.deck d).p / 1024 then .free else .filled k a
            | x => x))
        ∧ u.fetchPtr = (if (∃ i : Fin 16, ((s.deck d).ring[i]).block? = some ((s.deck d).p / 1024)) then (s.deck d).fetchPtr
            else max (s.deck d).fetchPtr ((s.deck d).p / 1024 + 1))
        ∧ u = { s.deck d with ring := u.ring, fetchPtr := u.fetchPtr, playBlock := (s.deck d).p / 1024 })

/-- An item that ends: its record leaves with the cause of the fade that reached its length, else COMPLETE at the effective length and
TRUNCATED before it, FADED and CLEARED for a CLEARING record; its as-run record ends now, and no reaction that names it is left; its deck
gives up all but its STORE flag, and when the break fitter has been told, the follower triggered and binding run, it enters IDLE and binding
runs again (R41, R56 to R58, R79, R80); that the follower is the one that stood behind the record when it left is the model's choice (log
entry 42). Fade marks and then a segue mark at the position are taken before it (R66, R72). -/
def Obligations.ItemEndReleasesTheDeck : Prop :=
  (∀ (s : State) (d : DeckNo), s.phase = .running → (s.deck d).endDue = true →
    exec (.itemEnd d) s = .next (((s.fadeMarksFirst d).segueFirst d).itemEndAt d).finish)
  ∧ ∀ (s : State) (d : DeckNo) (tag : Nat) (it : Item) (r : CueRecord), s.phase = .running → (s.deck d).endDue = true →
    (s.deck d).fadeMarkDue = false → (s.deck d).truncDue = false → (s.deck d).segueDue = false →
    (s.deck d).bound = some tag → (s.deck d).item = some it → s.find tag = some r → r.deck = some d → r.sounding = true →
    s.log.records.length < 32 → ∃ x : State, exec (.itemEnd d) s = .next x.finish ∧ tag ∉ x.tags
      ∧ x.deck d = { ({} : Deck) with state := (s.deck d).state, storeFlag := (s.deck d).storeFlag }
      ∧ x.work = (s.work.filter fun k => k.record? != some tag)
          ++ (match r.breakId with | none => [] | some id => [.memberLeft id r.group (r.tag == 65280 + id)])
          ++ (match s.follower tag r.group with | none => [] | some f => [.followEnd f]) ++ [.bind, .deckIdle d, .bind]
      ∧ (∀ y : State, (y.deck d).bound = none → y.perform (.deckIdle d) = y.setDeck d { y.deck d with state := .idle })
      ∧ (∀ e : DeckNo, e ≠ d → x.deck e = s.deck e)
      ∧ x.mix.requests[d] = none ∧ x.monitor.timers[d] = 0
      ∧ (∃ a ∈ x.log.records, a.sequence = s.log.nextSeq ∧ a.tag = tag ∧ a.start = r.actualStart ∧ a.finish = some s.now
          ∧ a.aired = (s.deck d).aired ∧ a.substituted = (s.deck d).substituted ∧ a.flags = r.flags
          ∧ (⟨a.outcome, a.reason⟩ : Cause) = (if r.state = .clearing then ⟨.faded, .cleared⟩
              else match (s.deck d).fadeOut with
                | some f => if f.len ≤ f.pos then f.cause
                    else if (s.deck d).endPos = it.elen then ⟨.complete, .none⟩ else ⟨.truncated, .none⟩
                | none => if (s.deck d).endPos = it.elen then ⟨.complete, .none⟩ else ⟨.truncated, .none⟩))
      ∧ s.After x

/-- The skip-silent check on a PLAYING deck of a LIVE engine: the segue is taken as reached, and a fade-out of 480 samples begins with
cause SKIPPED_SILENT (R72, R82). An engine that is not LIVE skips nothing (R82, R84). -/
def Obligations.SilentItemsAreSkipped : Prop :=
  (∀ (s : State) (d : DeckNo), s.phase = .running → s.AtRest →
    (s.isLive = false ∨ s.cfg.skipSilent = 0 ∨ s.monitor.timers[d] < s.cfg.skipSilent * 48000 ∨ (s.deck d).state ≠ .playing) →
    exec (.skipSilent d) s = .next s)
  ∧ ∀ (s : State) (d : DeckNo) (tag : Nat) (it : Item), s.phase = .running → s.isLive = true → s.cfg.skipSilent ≠ 0 →
    s.cfg.skipSilent * 48000 ≤ s.monitor.timers[d] → (s.deck d).state = .playing → (s.deck d).fadeIn = none →
    (s.deck d).bound = some tag → (s.deck d).item = some it → ∃ x : State, exec (.skipSilent d) s = .next x.finish
      ∧ x.deck d = { s.deck d with
          state := .fading, segued := true, fadeOut := some ⟨0, 480, it.law, ⟨.skippedSilent, .none⟩⟩ }
      ∧ x.monitor.timers[d] = 0 ∧ x.mix.requests[d] = none ∧ x.records = s.records
      ∧ ((s.deck d).segued = false → x.work = s.work ++ (match s.follower tag it.group with | none => [] | some f => [.followSegue f]))
      ∧ s.After x
end

