-- ==== Sys2Proof/Laws/State.lean ====
section
/-! SUPPORT. One lemma per field and update of State: what an update leaves as it was. -/

namespace Sys2Proof.Machine

set_option Elab.async false

variable (s : State)

@[simp] theorem State.setDeck_phase (d : DeckNo) (x : Deck) : (s.setDeck d x).phase = s.phase := rfl
@[simp] theorem State.setDeck_attempts (d : DeckNo) (x : Deck) : (s.setDeck d x).attempts = s.attempts := rfl
@[simp] theorem State.setDeck_configDefault (d : DeckNo) (x : Deck) : (s.setDeck d x).configDefault = s.configDefault := rfl
@[simp] theorem State.setDeck_cfg (d : DeckNo) (x : Deck) : (s.setDeck d x).cfg = s.cfg := rfl
@[simp] theorem State.setDeck_ownStation (d : DeckNo) (x : Deck) : (s.setDeck d x).ownStation = s.ownStation := rfl
@[simp] theorem State.setDeck_clock (d : DeckNo) (x : Deck) : (s.setDeck d x).clock = s.clock := rfl
@[simp] theorem State.setDeck_period (d : DeckNo) (x : Deck) : (s.setDeck d x).period = s.period := rfl
@[simp] theorem State.setDeck_controlDone (d : DeckNo) (x : Deck) : (s.setDeck d x).controlDone = s.controlDone := rfl
@[simp] theorem State.setDeck_airExpiries (d : DeckNo) (x : Deck) : (s.setDeck d x).airExpiries = s.airExpiries := rfl
@[simp] theorem State.setDeck_intervals (d : DeckNo) (x : Deck) : (s.setDeck d x).intervals = s.intervals := rfl
@[simp] theorem State.setDeck_reader (d : DeckNo) (x : Deck) : (s.setDeck d x).reader = s.reader := rfl
@[simp] theorem State.setDeck_records (d : DeckNo) (x : Deck) : (s.setDeck d x).records = s.records := rfl
@[simp] theorem State.setDeck_mix (d : DeckNo) (x : Deck) : (s.setDeck d x).mix = s.mix := rfl
@[simp] theorem State.setDeck_out (d : DeckNo) (x : Deck) : (s.setDeck d x).out = s.out := rfl
@[simp] theorem State.setDeck_monitor (d : DeckNo) (x : Deck) : (s.setDeck d x).monitor = s.monitor := rfl
@[simp] theorem State.setDeck_breaks (d : DeckNo) (x : Deck) : (s.setDeck d x).breaks = s.breaks := rfl
@[simp] theorem State.setDeck_bus (d : DeckNo) (x : Deck) : (s.setDeck d x).bus = s.bus := rfl
@[simp] theorem State.setDeck_peers (d : DeckNo) (x : Deck) : (s.setDeck d x).peers = s.peers := rfl
@[simp] theorem State.setDeck_pair (d : DeckNo) (x : Deck) : (s.setDeck d x).pair = s.pair := rfl
@[simp] theorem State.setDeck_log (d : DeckNo) (x : Deck) : (s.setDeck d x).log = s.log := rfl
@[simp] theorem State.setDeck_work (d : DeckNo) (x : Deck) : (s.setDeck d x).work = s.work := rfl
@[simp] theorem State.setDeck_pending (d : DeckNo) (x : Deck) : (s.setDeck d x).pending = s.pending := rfl

@[simp] theorem State.modDeck_phase (d : DeckNo) (f : Deck → Deck) : (s.modDeck d f).phase = s.phase := rfl
@[simp] theorem State.modDeck_attempts (d : DeckNo) (f : Deck → Deck) : (s.modDeck d f).attempts = s.attempts := rfl
@[simp] theorem State.modDeck_configDefault (d : DeckNo) (f : Deck → Deck) : (s.modDeck d f).configDefault = s.configDefault := rfl
@[simp] theorem State.modDeck_cfg (d : DeckNo) (f : Deck → Deck) : (s.modDeck d f).cfg = s.cfg := rfl
@[simp] theorem State.modDeck_ownStation (d : DeckNo) (f : Deck → Deck) : (s.modDeck d f).ownStation = s.ownStation := rfl
@[simp] theorem State.modDeck_clock (d : DeckNo) (f : Deck → Deck) : (s.modDeck d f).clock = s.clock := rfl
@[simp] theorem State.modDeck_period (d : DeckNo) (f : Deck → Deck) : (s.modDeck d f).period = s.period := rfl
@[simp] theorem State.modDeck_controlDone (d : DeckNo) (f : Deck → Deck) : (s.modDeck d f).controlDone = s.controlDone := rfl
@[simp] theorem State.modDeck_airExpiries (d : DeckNo) (f : Deck → Deck) : (s.modDeck d f).airExpiries = s.airExpiries := rfl
@[simp] theorem State.modDeck_intervals (d : DeckNo) (f : Deck → Deck) : (s.modDeck d f).intervals = s.intervals := rfl
@[simp] theorem State.modDeck_reader (d : DeckNo) (f : Deck → Deck) : (s.modDeck d f).reader = s.reader := rfl
@[simp] theorem State.modDeck_records (d : DeckNo) (f : Deck → Deck) : (s.modDeck d f).records = s.records := rfl
@[simp] theorem State.modDeck_mix (d : DeckNo) (f : Deck → Deck) : (s.modDeck d f).mix = s.mix := rfl
@[simp] theorem State.modDeck_out (d : DeckNo) (f : Deck → Deck) : (s.modDeck d f).out = s.out := rfl
@[simp] theorem State.modDeck_monitor (d : DeckNo) (f : Deck → Deck) : (s.modDeck d f).monitor = s.monitor := rfl
@[simp] theorem State.modDeck_breaks (d : DeckNo) (f : Deck → Deck) : (s.modDeck d f).breaks = s.breaks := rfl
@[simp] theorem State.modDeck_bus (d : DeckNo) (f : Deck → Deck) : (s.modDeck d f).bus = s.bus := rfl
@[simp] theorem State.modDeck_peers (d : DeckNo) (f : Deck → Deck) : (s.modDeck d f).peers = s.peers := rfl
@[simp] theorem State.modDeck_pair (d : DeckNo) (f : Deck → Deck) : (s.modDeck d f).pair = s.pair := rfl
@[simp] theorem State.modDeck_log (d : DeckNo) (f : Deck → Deck) : (s.modDeck d f).log = s.log := rfl
@[simp] theorem State.modDeck_work (d : DeckNo) (f : Deck → Deck) : (s.modDeck d f).work = s.work := rfl
@[simp] theorem State.modDeck_pending (d : DeckNo) (f : Deck → Deck) : (s.modDeck d f).pending = s.pending := rfl

@[simp] theorem State.modRecord_phase (tag : Nat) (f : CueRecord → CueRecord) : (s.modRecord tag f).phase = s.phase := rfl
@[simp] theorem State.modRecord_attempts (tag : Nat) (f : CueRecord → CueRecord) : (s.modRecord tag f).attempts = s.attempts := rfl
@[simp] theorem State.modRecord_configDefault (tag : Nat) (f : CueRecord → CueRecord) : (s.modRecord tag f).configDefault = s.configDefault := rfl
@[simp] theorem State.modRecord_cfg (tag : Nat) (f : CueRecord → CueRecord) : (s.modRecord tag f).cfg = s.cfg := rfl
@[simp] theorem State.modRecord_ownStation (tag : Nat) (f : CueRecord → CueRecord) : (s.modRecord tag f).ownStation = s.ownStation := rfl
@[simp] theorem State.modRecord_clock (tag : Nat) (f : CueRecord → CueRecord) : (s.modRecord tag f).clock = s.clock := rfl
@[simp] theorem State.modRecord_period (tag : Nat) (f : CueRecord → CueRecord) : (s.modRecord tag f).period = s.period := rfl
@[simp] theorem State.modRecord_controlDone (tag : Nat) (f : CueRecord → CueRecord) : (s.modRecord tag f).controlDone = s.controlDone := rfl
@[simp] theorem State.modRecord_airExpiries (tag : Nat) (f : CueRecord → CueRecord) : (s.modRecord tag f).airExpiries = s.airExpiries := rfl
@[simp] theorem State.modRecord_intervals (tag : Nat) (f : CueRecord → CueRecord) : (s.modRecord tag f).intervals = s.intervals := rfl
@[simp] theorem State.modRecord_reader (tag : Nat) (f : CueRecord → CueRecord) : (s.modRecord tag f).reader = s.reader := rfl
@[simp] theorem State.modRecord_decks (tag : Nat) (f : CueRecord → CueRecord) : (s.modRecord tag f).decks = s.decks := rfl
@[simp] theorem State.modRecord_mix (tag : Nat) (f : CueRecord → CueRecord) : (s.modRecord tag f).mix = s.mix := rfl
@[simp] theorem State.modRecord_out (tag : Nat) (f : CueRecord → CueRecord) : (s.modRecord tag f).out = s.out := rfl
@[simp] theorem State.modRecord_monitor (tag : Nat) (f : CueRecord → CueRecord) : (s.modRecord tag f).monitor = s.monitor := rfl
@[simp] theorem State.modRecord_breaks (tag : Nat) (f : CueRecord → CueRecord) : (s.modRecord tag f).breaks = s.breaks := rfl
@[simp] theorem State.modRecord_bus (tag : Nat) (f : CueRecord → CueRecord) : (s.modRecord tag f).bus = s.bus := rfl
@[simp] theorem State.modRecord_peers (tag : Nat) (f : CueRecord → CueRecord) : (s.modRecord tag f).peers = s.peers := rfl
@[simp] theorem State.modRecord_pair (tag : Nat) (f : CueRecord → CueRecord) : (s.modRecord tag f).pair = s.pair := rfl
@[simp] theorem State.modRecord_log (tag : Nat) (f : CueRecord → CueRecord) : (s.modRecord tag f).log = s.log := rfl
@[simp] theorem State.modRecord_work (tag : Nat) (f : CueRecord → CueRecord) : (s.modRecord tag f).work = s.work := rfl
@[simp] theorem State.modRecord_pending (tag : Nat) (f : CueRecord → CueRecord) : (s.modRecord tag f).pending = s.pending := rfl

@[simp] theorem State.setEntry_phase (e : EntryNo) (x : BreakEntry) : (s.setEntry e x).phase = s.phase := rfl
@[simp] theorem State.setEntry_attempts (e : EntryNo) (x : BreakEntry) : (s.setEntry e x).attempts = s.attempts := rfl
@[simp] theorem State.setEntry_configDefault (e : EntryNo) (x : BreakEntry) : (s.setEntry e x).configDefault = s.configDefault := rfl
@[simp] theorem State.setEntry_cfg (e : EntryNo) (x : BreakEntry) : (s.setEntry e x).cfg = s.cfg := rfl
@[simp] theorem State.setEntry_ownStation (e : EntryNo) (x : BreakEntry) : (s.setEntry e x).ownStation = s.ownStation := rfl
@[simp] theorem State.setEntry_clock (e : EntryNo) (x : BreakEntry) : (s.setEntry e x).clock = s.clock := rfl
@[simp] theorem State.setEntry_period (e : EntryNo) (x : BreakEntry) : (s.setEntry e x).period = s.period := rfl
@[simp] theorem State.setEntry_controlDone (e : EntryNo) (x : BreakEntry) : (s.setEntry e x).controlDone = s.controlDone := rfl
@[simp] theorem State.setEntry_airExpiries (e : EntryNo) (x : BreakEntry) : (s.setEntry e x).airExpiries = s.airExpiries := rfl
@[simp] theorem State.setEntry_intervals (e : EntryNo) (x : BreakEntry) : (s.setEntry e x).intervals = s.intervals := rfl
@[simp] theorem State.setEntry_reader (e : EntryNo) (x : BreakEntry) : (s.setEntry e x).reader = s.reader := rfl
@[simp] theorem State.setEntry_records (e : EntryNo) (x : BreakEntry) : (s.setEntry e x).records = s.records := rfl
@[simp] theorem State.setEntry_decks (e : EntryNo) (x : BreakEntry) : (s.setEntry e x).decks = s.decks := rfl
@[simp] theorem State.setEntry_mix (e : EntryNo) (x : BreakEntry) : (s.setEntry e x).mix = s.mix := rfl
@[simp] theorem State.setEntry_out (e : EntryNo) (x : BreakEntry) : (s.setEntry e x).out = s.out := rfl
@[simp] theorem State.setEntry_monitor (e : EntryNo) (x : BreakEntry) : (s.setEntry e x).monitor = s.monitor := rfl
@[simp] theorem State.setEntry_bus (e : EntryNo) (x : BreakEntry) : (s.setEntry e x).bus = s.bus := rfl
@[simp] theorem State.setEntry_peers (e : EntryNo) (x : BreakEntry) : (s.setEntry e x).peers = s.peers := rfl
@[simp] theorem State.setEntry_pair (e : EntryNo) (x : BreakEntry) : (s.setEntry e x).pair = s.pair := rfl
@[simp] theorem State.setEntry_log (e : EntryNo) (x : BreakEntry) : (s.setEntry e x).log = s.log := rfl
@[simp] theorem State.setEntry_work (e : EntryNo) (x : BreakEntry) : (s.setEntry e x).work = s.work := rfl
@[simp] theorem State.setEntry_pending (e : EntryNo) (x : BreakEntry) : (s.setEntry e x).pending = s.pending := rfl

@[simp] theorem State.modEntry_phase (e : EntryNo) (f : BreakEntry → BreakEntry) : (s.modEntry e f).phase = s.phase := rfl
@[simp] theorem State.modEntry_attempts (e : EntryNo) (f : BreakEntry → BreakEntry) : (s.modEntry e f).attempts = s.attempts := rfl
@[simp] theorem State.modEntry_configDefault (e : EntryNo) (f : BreakEntry → BreakEntry) : (s.modEntry e f).configDefault = s.configDefault := rfl
@[simp] theorem State.modEntry_cfg (e : EntryNo) (f : BreakEntry → BreakEntry) : (s.modEntry e f).cfg = s.cfg := rfl
@[simp] theorem State.modEntry_ownStation (e : EntryNo) (f : BreakEntry → BreakEntry) : (s.modEntry e f).ownStation = s.ownStation := rfl
@[simp] theorem State.modEntry_clock (e : EntryNo) (f : BreakEntry → BreakEntry) : (s.modEntry e f).clock = s.clock := rfl
@[simp] theorem State.modEntry_period (e : EntryNo) (f : BreakEntry → BreakEntry) : (s.modEntry e f).period = s.period := rfl
@[simp] theorem State.modEntry_controlDone (e : EntryNo) (f : BreakEntry → BreakEntry) : (s.modEntry e f).controlDone = s.controlDone := rfl
@[simp] theorem State.modEntry_airExpiries (e : EntryNo) (f : BreakEntry → BreakEntry) : (s.modEntry e f).airExpiries = s.airExpiries := rfl
@[simp] theorem State.modEntry_intervals (e : EntryNo) (f : BreakEntry → BreakEntry) : (s.modEntry e f).intervals = s.intervals := rfl
@[simp] theorem State.modEntry_reader (e : EntryNo) (f : BreakEntry → BreakEntry) : (s.modEntry e f).reader = s.reader := rfl
@[simp] theorem State.modEntry_records (e : EntryNo) (f : BreakEntry → BreakEntry) : (s.modEntry e f).records = s.records := rfl
@[simp] theorem State.modEntry_decks (e : EntryNo) (f : BreakEntry → BreakEntry) : (s.modEntry e f).decks = s.decks := rfl
@[simp] theorem State.modEntry_mix (e : EntryNo) (f : BreakEntry → BreakEntry) : (s.modEntry e f).mix = s.mix := rfl
@[simp] theorem State.modEntry_out (e : EntryNo) (f : BreakEntry → BreakEntry) : (s.modEntry e f).out = s.out := rfl
@[simp] theorem State.modEntry_monitor (e : EntryNo) (f : BreakEntry → BreakEntry) : (s.modEntry e f).monitor = s.monitor := rfl
@[simp] theorem State.modEntry_bus (e : EntryNo) (f : BreakEntry → BreakEntry) : (s.modEntry e f).bus = s.bus := rfl
@[simp] theorem State.modEntry_peers (e : EntryNo) (f : BreakEntry → BreakEntry) : (s.modEntry e f).peers = s.peers := rfl
@[simp] theorem State.modEntry_pair (e : EntryNo) (f : BreakEntry → BreakEntry) : (s.modEntry e f).pair = s.pair := rfl
@[simp] theorem State.modEntry_log (e : EntryNo) (f : BreakEntry → BreakEntry) : (s.modEntry e f).log = s.log := rfl
@[simp] theorem State.modEntry_work (e : EntryNo) (f : BreakEntry → BreakEntry) : (s.modEntry e f).work = s.work := rfl
@[simp] theorem State.modEntry_pending (e : EntryNo) (f : BreakEntry → BreakEntry) : (s.modEntry e f).pending = s.pending := rfl

@[simp] theorem State.modPeer_phase (q : Station) (f : Peer → Peer) : (s.modPeer q f).phase = s.phase := rfl
@[simp] theorem State.modPeer_attempts (q : Station) (f : Peer → Peer) : (s.modPeer q f).attempts = s.attempts := rfl
@[simp] theorem State.modPeer_configDefault (q : Station) (f : Peer → Peer) : (s.modPeer q f).configDefault = s.configDefault := rfl
@[simp] theorem State.modPeer_cfg (q : Station) (f : Peer → Peer) : (s.modPeer q f).cfg = s.cfg := rfl
@[simp] theorem State.modPeer_ownStation (q : Station) (f : Peer → Peer) : (s.modPeer q f).ownStation = s.ownStation := rfl
@[simp] theorem State.modPeer_clock (q : Station) (f : Peer → Peer) : (s.modPeer q f).clock = s.clock := rfl
@[simp] theorem State.modPeer_period (q : Station) (f : Peer → Peer) : (s.modPeer q f).period = s.period := rfl
@[simp] theorem State.modPeer_controlDone (q : Station) (f : Peer → Peer) : (s.modPeer q f).controlDone = s.controlDone := rfl
@[simp] theorem State.modPeer_airExpiries (q : Station) (f : Peer → Peer) : (s.modPeer q f).airExpiries = s.airExpiries := rfl
@[simp] theorem State.modPeer_intervals (q : Station) (f : Peer → Peer) : (s.modPeer q f).intervals = s.intervals := rfl
@[simp] theorem State.modPeer_reader (q : Station) (f : Peer → Peer) : (s.modPeer q f).reader = s.reader := rfl
@[simp] theorem State.modPeer_records (q : Station) (f : Peer → Peer) : (s.modPeer q f).records = s.records := rfl
@[simp] theorem State.modPeer_decks (q : Station) (f : Peer → Peer) : (s.modPeer q f).decks = s.decks := rfl
@[simp] theorem State.modPeer_mix (q : Station) (f : Peer → Peer) : (s.modPeer q f).mix = s.mix := rfl
@[simp] theorem State.modPeer_out (q : Station) (f : Peer → Peer) : (s.modPeer q f).out = s.out := rfl
@[simp] theorem State.modPeer_monitor (q : Station) (f : Peer → Peer) : (s.modPeer q f).monitor = s.monitor := rfl
@[simp] theorem State.modPeer_breaks (q : Station) (f : Peer → Peer) : (s.modPeer q f).breaks = s.breaks := rfl
@[simp] theorem State.modPeer_bus (q : Station) (f : Peer → Peer) : (s.modPeer q f).bus = s.bus := rfl
@[simp] theorem State.modPeer_pair (q : Station) (f : Peer → Peer) : (s.modPeer q f).pair = s.pair := rfl
@[simp] theorem State.modPeer_log (q : Station) (f : Peer → Peer) : (s.modPeer q f).log = s.log := rfl
@[simp] theorem State.modPeer_work (q : Station) (f : Peer → Peer) : (s.modPeer q f).work = s.work := rfl
@[simp] theorem State.modPeer_pending (q : Station) (f : Peer → Peer) : (s.modPeer q f).pending = s.pending := rfl

@[simp] theorem State.modReader_phase (f : StoreReader → StoreReader) : (s.modReader f).phase = s.phase := rfl
@[simp] theorem State.modReader_attempts (f : StoreReader → StoreReader) : (s.modReader f).attempts = s.attempts := rfl
@[simp] theorem State.modReader_configDefault (f : StoreReader → StoreReader) : (s.modReader f).configDefault = s.configDefault := rfl
@[simp] theorem State.modReader_cfg (f : StoreReader → StoreReader) : (s.modReader f).cfg = s.cfg := rfl
@[simp] theorem State.modReader_ownStation (f : StoreReader → StoreReader) : (s.modReader f).ownStation = s.ownStation := rfl
@[simp] theorem State.modReader_clock (f : StoreReader → StoreReader) : (s.modReader f).clock = s.clock := rfl
@[simp] theorem State.modReader_period (f : StoreReader → StoreReader) : (s.modReader f).period = s.period := rfl
@[simp] theorem State.modReader_controlDone (f : StoreReader → StoreReader) : (s.modReader f).controlDone = s.controlDone := rfl
@[simp] theorem State.modReader_airExpiries (f : StoreReader → StoreReader) : (s.modReader f).airExpiries = s.airExpiries := rfl
@[simp] theorem State.modReader_intervals (f : StoreReader → StoreReader) : (s.modReader f).intervals = s.intervals := rfl
@[simp] theorem State.modReader_records (f : StoreReader → StoreReader) : (s.modReader f).records = s.records := rfl
@[simp] theorem State.modReader_decks (f : StoreReader → StoreReader) : (s.modReader f).decks = s.decks := rfl
@[simp] theorem State.modReader_mix (f : StoreReader → StoreReader) : (s.modReader f).mix = s.mix := rfl
@[simp] theorem State.modReader_out (f : StoreReader → StoreReader) : (s.modReader f).out = s.out := rfl
@[simp] theorem State.modReader_monitor (f : StoreReader → StoreReader) : (s.modReader f).monitor = s.monitor := rfl
@[simp] theorem State.modReader_breaks (f : StoreReader → StoreReader) : (s.modReader f).breaks = s.breaks := rfl
@[simp] theorem State.modReader_bus (f : StoreReader → StoreReader) : (s.modReader f).bus = s.bus := rfl
@[simp] theorem State.modReader_peers (f : StoreReader → StoreReader) : (s.modReader f).peers = s.peers := rfl
@[simp] theorem State.modReader_pair (f : StoreReader → StoreReader) : (s.modReader f).pair = s.pair := rfl
@[simp] theorem State.modReader_log (f : StoreReader → StoreReader) : (s.modReader f).log = s.log := rfl
@[simp] theorem State.modReader_work (f : StoreReader → StoreReader) : (s.modReader f).work = s.work := rfl
@[simp] theorem State.modReader_pending (f : StoreReader → StoreReader) : (s.modReader f).pending = s.pending := rfl

@[simp] theorem State.modBus_phase (f : CueBus → CueBus) : (s.modBus f).phase = s.phase := rfl
@[simp] theorem State.modBus_attempts (f : CueBus → CueBus) : (s.modBus f).attempts = s.attempts := rfl
@[simp] theorem State.modBus_configDefault (f : CueBus → CueBus) : (s.modBus f).configDefault = s.configDefault := rfl
@[simp] theorem State.modBus_cfg (f : CueBus → CueBus) : (s.modBus f).cfg = s.cfg := rfl
@[simp] theorem State.modBus_ownStation (f : CueBus → CueBus) : (s.modBus f).ownStation = s.ownStation := rfl
@[simp] theorem State.modBus_clock (f : CueBus → CueBus) : (s.modBus f).clock = s.clock := rfl
@[simp] theorem State.modBus_period (f : CueBus → CueBus) : (s.modBus f).period = s.period := rfl
@[simp] theorem State.modBus_controlDone (f : CueBus → CueBus) : (s.modBus f).controlDone = s.controlDone := rfl
@[simp] theorem State.modBus_airExpiries (f : CueBus → CueBus) : (s.modBus f).airExpiries = s.airExpiries := rfl
@[simp] theorem State.modBus_intervals (f : CueBus → CueBus) : (s.modBus f).intervals = s.intervals := rfl
@[simp] theorem State.modBus_reader (f : CueBus → CueBus) : (s.modBus f).reader = s.reader := rfl
@[simp] theorem State.modBus_records (f : CueBus → CueBus) : (s.modBus f).records = s.records := rfl
@[simp] theorem State.modBus_decks (f : CueBus → CueBus) : (s.modBus f).decks = s.decks := rfl
@[simp] theorem State.modBus_mix (f : CueBus → CueBus) : (s.modBus f).mix = s.mix := rfl
@[simp] theorem State.modBus_out (f : CueBus → CueBus) : (s.modBus f).out = s.out := rfl
@[simp] theorem State.modBus_monitor (f : CueBus → CueBus) : (s.modBus f).monitor = s.monitor := rfl
@[simp] theorem State.modBus_breaks (f : CueBus → CueBus) : (s.modBus f).breaks = s.breaks := rfl
@[simp] theorem State.modBus_peers (f : CueBus → CueBus) : (s.modBus f).peers = s.peers := rfl
@[simp] theorem State.modBus_pair (f : CueBus → CueBus) : (s.modBus f).pair = s.pair := rfl
@[simp] theorem State.modBus_log (f : CueBus → CueBus) : (s.modBus f).log = s.log := rfl
@[simp] theorem State.modBus_work (f : CueBus → CueBus) : (s.modBus f).work = s.work := rfl
@[simp] theorem State.modBus_pending (f : CueBus → CueBus) : (s.modBus f).pending = s.pending := rfl

@[simp] theorem State.setTimer_phase (d : DeckNo) (n : Nat) : (s.setTimer d n).phase = s.phase := rfl
@[simp] theorem State.setTimer_attempts (d : DeckNo) (n : Nat) : (s.setTimer d n).attempts = s.attempts := rfl
@[simp] theorem State.setTimer_configDefault (d : DeckNo) (n : Nat) : (s.setTimer d n).configDefault = s.configDefault := rfl
@[simp] theorem State.setTimer_cfg (d : DeckNo) (n : Nat) : (s.setTimer d n).cfg = s.cfg := rfl
@[simp] theorem State.setTimer_ownStation (d : DeckNo) (n : Nat) : (s.setTimer d n).ownStation = s.ownStation := rfl
@[simp] theorem State.setTimer_clock (d : DeckNo) (n : Nat) : (s.setTimer d n).clock = s.clock := rfl
@[simp] theorem State.setTimer_period (d : DeckNo) (n : Nat) : (s.setTimer d n).period = s.period := rfl
@[simp] theorem State.setTimer_controlDone (d : DeckNo) (n : Nat) : (s.setTimer d n).controlDone = s.controlDone := rfl
@[simp] theorem State.setTimer_airExpiries (d : DeckNo) (n : Nat) : (s.setTimer d n).airExpiries = s.airExpiries := rfl
@[simp] theorem State.setTimer_intervals (d : DeckNo) (n : Nat) : (s.setTimer d n).intervals = s.intervals := rfl
@[simp] theorem State.setTimer_reader (d : DeckNo) (n : Nat) : (s.setTimer d n).reader = s.reader := rfl
@[simp] theorem State.setTimer_records (d : DeckNo) (n : Nat) : (s.setTimer d n).records = s.records := rfl
@[simp] theorem State.setTimer_decks (d : DeckNo) (n : Nat) : (s.setTimer d n).decks = s.decks := rfl
@[simp] theorem State.setTimer_mix (d : DeckNo) (n : Nat) : (s.setTimer d n).mix = s.mix := rfl
@[simp] theorem State.setTimer_out (d : DeckNo) (n : Nat) : (s.setTimer d n).out = s.out := rfl
@[simp] theorem State.setTimer_breaks (d : DeckNo) (n : Nat) : (s.setTimer d n).breaks = s.breaks := rfl
@[simp] theorem State.setTimer_bus (d : DeckNo) (n : Nat) : (s.setTimer d n).bus = s.bus := rfl
@[simp] theorem State.setTimer_peers (d : DeckNo) (n : Nat) : (s.setTimer d n).peers = s.peers := rfl
@[simp] theorem State.setTimer_pair (d : DeckNo) (n : Nat) : (s.setTimer d n).pair = s.pair := rfl
@[simp] theorem State.setTimer_log (d : DeckNo) (n : Nat) : (s.setTimer d n).log = s.log := rfl
@[simp] theorem State.setTimer_work (d : DeckNo) (n : Nat) : (s.setTimer d n).work = s.work := rfl
@[simp] theorem State.setTimer_pending (d : DeckNo) (n : Nat) : (s.setTimer d n).pending = s.pending := rfl

@[simp] theorem State.emit_phase (ts : List Task) : (s.emit ts).phase = s.phase := rfl
@[simp] theorem State.emit_attempts (ts : List Task) : (s.emit ts).attempts = s.attempts := rfl
@[simp] theorem State.emit_configDefault (ts : List Task) : (s.emit ts).configDefault = s.configDefault := rfl
@[simp] theorem State.emit_cfg (ts : List Task) : (s.emit ts).cfg = s.cfg := rfl
@[simp] theorem State.emit_ownStation (ts : List Task) : (s.emit ts).ownStation = s.ownStation := rfl
@[simp] theorem State.emit_clock (ts : List Task) : (s.emit ts).clock = s.clock := rfl
@[simp] theorem State.emit_period (ts : List Task) : (s.emit ts).period = s.period := rfl
@[simp] theorem State.emit_controlDone (ts : List Task) : (s.emit ts).controlDone = s.controlDone := rfl
@[simp] theorem State.emit_airExpiries (ts : List Task) : (s.emit ts).airExpiries = s.airExpiries := rfl
@[simp] theorem State.emit_intervals (ts : List Task) : (s.emit ts).intervals = s.intervals := rfl
@[simp] theorem State.emit_reader (ts : List Task) : (s.emit ts).reader = s.reader := rfl
@[simp] theorem State.emit_records (ts : List Task) : (s.emit ts).records = s.records := rfl
@[simp] theorem State.emit_decks (ts : List Task) : (s.emit ts).decks = s.decks := rfl
@[simp] theorem State.emit_mix (ts : List Task) : (s.emit ts).mix = s.mix := rfl
@[simp] theorem State.emit_out (ts : List Task) : (s.emit ts).out = s.out := rfl
@[simp] theorem State.emit_monitor (ts : List Task) : (s.emit ts).monitor = s.monitor := rfl
@[simp] theorem State.emit_breaks (ts : List Task) : (s.emit ts).breaks = s.breaks := rfl
@[simp] theorem State.emit_bus (ts : List Task) : (s.emit ts).bus = s.bus := rfl
@[simp] theorem State.emit_peers (ts : List Task) : (s.emit ts).peers = s.peers := rfl
@[simp] theorem State.emit_pair (ts : List Task) : (s.emit ts).pair = s.pair := rfl
@[simp] theorem State.emit_log (ts : List Task) : (s.emit ts).log = s.log := rfl
@[simp] theorem State.emit_pending (ts : List Task) : (s.emit ts).pending = s.pending := rfl

@[simp] theorem State.cancelAir_phase (h : AirHandle) : (s.cancelAir h).phase = s.phase := rfl
@[simp] theorem State.cancelAir_attempts (h : AirHandle) : (s.cancelAir h).attempts = s.attempts := rfl
@[simp] theorem State.cancelAir_configDefault (h : AirHandle) : (s.cancelAir h).configDefault = s.configDefault := rfl
@[simp] theorem State.cancelAir_cfg (h : AirHandle) : (s.cancelAir h).cfg = s.cfg := rfl
@[simp] theorem State.cancelAir_ownStation (h : AirHandle) : (s.cancelAir h).ownStation = s.ownStation := rfl
@[simp] theorem State.cancelAir_clock (h : AirHandle) : (s.cancelAir h).clock = s.clock := rfl
@[simp] theorem State.cancelAir_period (h : AirHandle) : (s.cancelAir h).period = s.period := rfl
@[simp] theorem State.cancelAir_controlDone (h : AirHandle) : (s.cancelAir h).controlDone = s.controlDone := rfl
@[simp] theorem State.cancelAir_intervals (h : AirHandle) : (s.cancelAir h).intervals = s.intervals := rfl
@[simp] theorem State.cancelAir_reader (h : AirHandle) : (s.cancelAir h).reader = s.reader := rfl
@[simp] theorem State.cancelAir_records (h : AirHandle) : (s.cancelAir h).records = s.records := rfl
@[simp] theorem State.cancelAir_decks (h : AirHandle) : (s.cancelAir h).decks = s.decks := rfl
@[simp] theorem State.cancelAir_mix (h : AirHandle) : (s.cancelAir h).mix = s.mix := rfl
@[simp] theorem State.cancelAir_out (h : AirHandle) : (s.cancelAir h).out = s.out := rfl
@[simp] theorem State.cancelAir_monitor (h : AirHandle) : (s.cancelAir h).monitor = s.monitor := rfl
@[simp] theorem State.cancelAir_breaks (h : AirHandle) : (s.cancelAir h).breaks = s.breaks := rfl
@[simp] theorem State.cancelAir_bus (h : AirHandle) : (s.cancelAir h).bus = s.bus := rfl
@[simp] theorem State.cancelAir_peers (h : AirHandle) : (s.cancelAir h).peers = s.peers := rfl
@[simp] theorem State.cancelAir_pair (h : AirHandle) : (s.cancelAir h).pair = s.pair := rfl
@[simp] theorem State.cancelAir_log (h : AirHandle) : (s.cancelAir h).log = s.log := rfl
@[simp] theorem State.cancelAir_work (h : AirHandle) : (s.cancelAir h).work = s.work := rfl
@[simp] theorem State.cancelAir_pending (h : AirHandle) : (s.cancelAir h).pending = s.pending := rfl
@[simp] theorem State.forget_phase (tag : Nat) : (s.forget tag).phase = s.phase := rfl
@[simp] theorem State.forget_attempts (tag : Nat) : (s.forget tag).attempts = s.attempts := rfl
@[simp] theorem State.forget_configDefault (tag : Nat) : (s.forget tag).configDefault = s.configDefault := rfl
@[simp] theorem State.forget_cfg (tag : Nat) : (s.forget tag).cfg = s.cfg := rfl
@[simp] theorem State.forget_ownStation (tag : Nat) : (s.forget tag).ownStation = s.ownStation := rfl
@[simp] theorem State.forget_clock (tag : Nat) : (s.forget tag).clock = s.clock := rfl
@[simp] theorem State.forget_period (tag : Nat) : (s.forget tag).period = s.period := rfl
@[simp] theorem State.forget_controlDone (tag : Nat) : (s.forget tag).controlDone = s.controlDone := rfl
@[simp] theorem State.forget_airExpiries (tag : Nat) : (s.forget tag).airExpiries = s.airExpiries := rfl
@[simp] theorem State.forget_intervals (tag : Nat) : (s.forget tag).intervals = s.intervals := rfl
@[simp] theorem State.forget_reader (tag : Nat) : (s.forget tag).reader = s.reader := rfl
@[simp] theorem State.forget_records (tag : Nat) : (s.forget tag).records = s.records := rfl
@[simp] theorem State.forget_decks (tag : Nat) : (s.forget tag).decks = s.decks := rfl
@[simp] theorem State.forget_mix (tag : Nat) : (s.forget tag).mix = s.mix := rfl
@[simp] theorem State.forget_out (tag : Nat) : (s.forget tag).out = s.out := rfl
@[simp] theorem State.forget_monitor (tag : Nat) : (s.forget tag).monitor = s.monitor := rfl
@[simp] theorem State.forget_breaks (tag : Nat) : (s.forget tag).breaks = s.breaks := rfl
@[simp] theorem State.forget_bus (tag : Nat) : (s.forget tag).bus = s.bus := rfl
@[simp] theorem State.forget_peers (tag : Nat) : (s.forget tag).peers = s.peers := rfl
@[simp] theorem State.forget_pair (tag : Nat) : (s.forget tag).pair = s.pair := rfl
@[simp] theorem State.forget_log (tag : Nat) : (s.forget tag).log = s.log := rfl
@[simp] theorem State.forget_pending (tag : Nat) : (s.forget tag).pending = s.pending := rfl

@[simp] theorem State.cancelInterval_phase (h : IntervalHandle) : (s.cancelInterval h).phase = s.phase := rfl
@[simp] theorem State.cancelInterval_attempts (h : IntervalHandle) : (s.cancelInterval h).attempts = s.attempts := rfl
@[simp] theorem State.cancelInterval_configDefault (h : IntervalHandle) : (s.cancelInterval h).configDefault = s.configDefault := rfl
@[simp] theorem State.cancelInterval_cfg (h : IntervalHandle) : (s.cancelInterval h).cfg = s.cfg := rfl
@[simp] theorem State.cancelInterval_ownStation (h : IntervalHandle) : (s.cancelInterval h).ownStation = s.ownStation := rfl
@[simp] theorem State.cancelInterval_clock (h : IntervalHandle) : (s.cancelInterval h).clock = s.clock := rfl
@[simp] theorem State.cancelInterval_period (h : IntervalHandle) : (s.cancelInterval h).period = s.period := rfl
@[simp] theorem State.cancelInterval_controlDone (h : IntervalHandle) : (s.cancelInterval h).controlDone = s.controlDone := rfl
@[simp] theorem State.cancelInterval_airExpiries (h : IntervalHandle) : (s.cancelInterval h).airExpiries = s.airExpiries := rfl
@[simp] theorem State.cancelInterval_reader (h : IntervalHandle) : (s.cancelInterval h).reader = s.reader := rfl
@[simp] theorem State.cancelInterval_records (h : IntervalHandle) : (s.cancelInterval h).records = s.records := rfl
@[simp] theorem State.cancelInterval_decks (h : IntervalHandle) : (s.cancelInterval h).decks = s.decks := rfl
@[simp] theorem State.cancelInterval_mix (h : IntervalHandle) : (s.cancelInterval h).mix = s.mix := rfl
@[simp] theorem State.cancelInterval_out (h : IntervalHandle) : (s.cancelInterval h).out = s.out := rfl
@[simp] theorem State.cancelInterval_monitor (h : IntervalHandle) : (s.cancelInterval h).monitor = s.monitor := rfl
@[simp] theorem State.cancelInterval_breaks (h : IntervalHandle) : (s.cancelInterval h).breaks = s.breaks := rfl
@[simp] theorem State.cancelInterval_bus (h : IntervalHandle) : (s.cancelInterval h).bus = s.bus := rfl
@[simp] theorem State.cancelInterval_peers (h : IntervalHandle) : (s.cancelInterval h).peers = s.peers := rfl
@[simp] theorem State.cancelInterval_pair (h : IntervalHandle) : (s.cancelInterval h).pair = s.pair := rfl
@[simp] theorem State.cancelInterval_log (h : IntervalHandle) : (s.cancelInterval h).log = s.log := rfl
@[simp] theorem State.cancelInterval_work (h : IntervalHandle) : (s.cancelInterval h).work = s.work := rfl
@[simp] theorem State.cancelInterval_pending (h : IntervalHandle) : (s.cancelInterval h).pending = s.pending := rfl

@[simp] theorem State.setInterval_phase (h : IntervalHandle) (n : Nat) : (s.setInterval h n).phase = s.phase := rfl
@[simp] theorem State.setInterval_attempts (h : IntervalHandle) (n : Nat) : (s.setInterval h n).attempts = s.attempts := rfl
@[simp] theorem State.setInterval_configDefault (h : IntervalHandle) (n : Nat) : (s.setInterval h n).configDefault = s.configDefault := rfl
@[simp] theorem State.setInterval_cfg (h : IntervalHandle) (n : Nat) : (s.setInterval h n).cfg = s.cfg := rfl
@[simp] theorem State.setInterval_ownStation (h : IntervalHandle) (n : Nat) : (s.setInterval h n).ownStation = s.ownStation := rfl
@[simp] theorem State.setInterval_clock (h : IntervalHandle) (n : Nat) : (s.setInterval h n).clock = s.clock := rfl
@[simp] theorem State.setInterval_period (h : IntervalHandle) (n : Nat) : (s.setInterval h n).period = s.period := rfl
@[simp] theorem State.setInterval_controlDone (h : IntervalHandle) (n : Nat) : (s.setInterval h n).controlDone = s.controlDone := rfl
@[simp] theorem State.setInterval_airExpiries (h : IntervalHandle) (n : Nat) : (s.setInterval h n).airExpiries = s.airExpiries := rfl
@[simp] theorem State.setInterval_reader (h : IntervalHandle) (n : Nat) : (s.setInterval h n).reader = s.reader := rfl
@[simp] theorem State.setInterval_records (h : IntervalHandle) (n : Nat) : (s.setInterval h n).records = s.records := rfl
@[simp] theorem State.setInterval_decks (h : IntervalHandle) (n : Nat) : (s.setInterval h n).decks = s.decks := rfl
@[simp] theorem State.setInterval_mix (h : IntervalHandle) (n : Nat) : (s.setInterval h n).mix = s.mix := rfl
@[simp] theorem State.setInterval_out (h : IntervalHandle) (n : Nat) : (s.setInterval h n).out = s.out := rfl
@[simp] theorem State.setInterval_monitor (h : IntervalHandle) (n : Nat) : (s.setInterval h n).monitor = s.monitor := rfl
@[simp] theorem State.setInterval_breaks (h : IntervalHandle) (n : Nat) : (s.setInterval h n).breaks = s.breaks := rfl
@[simp] theorem State.setInterval_bus (h : IntervalHandle) (n : Nat) : (s.setInterval h n).bus = s.bus := rfl
@[simp] theorem State.setInterval_peers (h : IntervalHandle) (n : Nat) : (s.setInterval h n).peers = s.peers := rfl
@[simp] theorem State.setInterval_pair (h : IntervalHandle) (n : Nat) : (s.setInterval h n).pair = s.pair := rfl
@[simp] theorem State.setInterval_log (h : IntervalHandle) (n : Nat) : (s.setInterval h n).log = s.log := rfl
@[simp] theorem State.setInterval_work (h : IntervalHandle) (n : Nat) : (s.setInterval h n).work = s.work := rfl
@[simp] theorem State.setInterval_pending (h : IntervalHandle) (n : Nat) : (s.setInterval h n).pending = s.pending := rfl

@[simp] theorem State.setRequest_phase (d : DeckNo) (q : Option DuckRequest) : (s.setRequest d q).phase = s.phase := rfl
@[simp] theorem State.setRequest_attempts (d : DeckNo) (q : Option DuckRequest) : (s.setRequest d q).attempts = s.attempts := rfl
@[simp] theorem State.setRequest_configDefault (d : DeckNo) (q : Option DuckRequest) : (s.setRequest d q).configDefault = s.configDefault := rfl
@[simp] theorem State.setRequest_cfg (d : DeckNo) (q : Option DuckRequest) : (s.setRequest d q).cfg = s.cfg := rfl
@[simp] theorem State.setRequest_ownStation (d : DeckNo) (q : Option DuckRequest) : (s.setRequest d q).ownStation = s.ownStation := rfl
@[simp] theorem State.setRequest_clock (d : DeckNo) (q : Option DuckRequest) : (s.setRequest d q).clock = s.clock := rfl
@[simp] theorem State.setRequest_period (d : DeckNo) (q : Option DuckRequest) : (s.setRequest d q).period = s.period := rfl
@[simp] theorem State.setRequest_controlDone (d : DeckNo) (q : Option DuckRequest) : (s.setRequest d q).controlDone = s.controlDone := rfl
@[simp] theorem State.setRequest_airExpiries (d : DeckNo) (q : Option DuckRequest) : (s.setRequest d q).airExpiries = s.airExpiries := rfl
@[simp] theorem State.setRequest_intervals (d : DeckNo) (q : Option DuckRequest) : (s.setRequest d q).intervals = s.intervals := rfl
@[simp] theorem State.setRequest_reader (d : DeckNo) (q : Option DuckRequest) : (s.setRequest d q).reader = s.reader := rfl
@[simp] theorem State.setRequest_records (d : DeckNo) (q : Option DuckRequest) : (s.setRequest d q).records = s.records := rfl
@[simp] theorem State.setRequest_decks (d : DeckNo) (q : Option DuckRequest) : (s.setRequest d q).decks = s.decks := rfl
@[simp] theorem State.setRequest_out (d : DeckNo) (q : Option DuckRequest) : (s.setRequest d q).out = s.out := rfl
@[simp] theorem State.setRequest_monitor (d : DeckNo) (q : Option DuckRequest) : (s.setRequest d q).monitor = s.monitor := rfl
@[simp] theorem State.setRequest_breaks (d : DeckNo) (q : Option DuckRequest) : (s.setRequest d q).breaks = s.breaks := rfl
@[simp] theorem State.setRequest_bus (d : DeckNo) (q : Option DuckRequest) : (s.setRequest d q).bus = s.bus := rfl
@[simp] theorem State.setRequest_peers (d : DeckNo) (q : Option DuckRequest) : (s.setRequest d q).peers = s.peers := rfl
@[simp] theorem State.setRequest_pair (d : DeckNo) (q : Option DuckRequest) : (s.setRequest d q).pair = s.pair := rfl
@[simp] theorem State.setRequest_log (d : DeckNo) (q : Option DuckRequest) : (s.setRequest d q).log = s.log := rfl
@[simp] theorem State.setRequest_work (d : DeckNo) (q : Option DuckRequest) : (s.setRequest d q).work = s.work := rfl
@[simp] theorem State.setRequest_pending (d : DeckNo) (q : Option DuckRequest) : (s.setRequest d q).pending = s.pending := rfl

@[simp] theorem State.zeroWords_phase (d : DeckNo) : (s.zeroWords d).phase = s.phase := rfl
@[simp] theorem State.zeroWords_attempts (d : DeckNo) : (s.zeroWords d).attempts = s.attempts := rfl
@[simp] theorem State.zeroWords_configDefault (d : DeckNo) : (s.zeroWords d).configDefault = s.configDefault := rfl
@[simp] theorem State.zeroWords_cfg (d : DeckNo) : (s.zeroWords d).cfg = s.cfg := rfl
@[simp] theorem State.zeroWords_ownStation (d : DeckNo) : (s.zeroWords d).ownStation = s.ownStation := rfl
@[simp] theorem State.zeroWords_clock (d : DeckNo) : (s.zeroWords d).clock = s.clock := rfl
@[simp] theorem State.zeroWords_period (d : DeckNo) : (s.zeroWords d).period = s.period := rfl
@[simp] theorem State.zeroWords_controlDone (d : DeckNo) : (s.zeroWords d).controlDone = s.controlDone := rfl
@[simp] theorem State.zeroWords_airExpiries (d : DeckNo) : (s.zeroWords d).airExpiries = s.airExpiries := rfl
@[simp] theorem State.zeroWords_intervals (d : DeckNo) : (s.zeroWords d).intervals = s.intervals := rfl
@[simp] theorem State.zeroWords_reader (d : DeckNo) : (s.zeroWords d).reader = s.reader := rfl
@[simp] theorem State.zeroWords_records (d : DeckNo) : (s.zeroWords d).records = s.records := rfl
@[simp] theorem State.zeroWords_decks (d : DeckNo) : (s.zeroWords d).decks = s.decks := rfl
@[simp] theorem State.zeroWords_out (d : DeckNo) : (s.zeroWords d).out = s.out := rfl
@[simp] theorem State.zeroWords_monitor (d : DeckNo) : (s.zeroWords d).monitor = s.monitor := rfl
@[simp] theorem State.zeroWords_breaks (d : DeckNo) : (s.zeroWords d).breaks = s.breaks := rfl
@[simp] theorem State.zeroWords_bus (d : DeckNo) : (s.zeroWords d).bus = s.bus := rfl
@[simp] theorem State.zeroWords_peers (d : DeckNo) : (s.zeroWords d).peers = s.peers := rfl
@[simp] theorem State.zeroWords_pair (d : DeckNo) : (s.zeroWords d).pair = s.pair := rfl
@[simp] theorem State.zeroWords_log (d : DeckNo) : (s.zeroWords d).log = s.log := rfl
@[simp] theorem State.zeroWords_work (d : DeckNo) : (s.zeroWords d).work = s.work := rfl
@[simp] theorem State.zeroWords_pending (d : DeckNo) : (s.zeroWords d).pending = s.pending := rfl

@[simp] theorem State.modGate_phase (f : Gate → Gate) : (s.modGate f).phase = s.phase := rfl
@[simp] theorem State.modGate_attempts (f : Gate → Gate) : (s.modGate f).attempts = s.attempts := rfl
@[simp] theorem State.modGate_configDefault (f : Gate → Gate) : (s.modGate f).configDefault = s.configDefault := rfl
@[simp] theorem State.modGate_cfg (f : Gate → Gate) : (s.modGate f).cfg = s.cfg := rfl
@[simp] theorem State.modGate_ownStation (f : Gate → Gate) : (s.modGate f).ownStation = s.ownStation := rfl
@[simp] theorem State.modGate_clock (f : Gate → Gate) : (s.modGate f).clock = s.clock := rfl
@[simp] theorem State.modGate_period (f : Gate → Gate) : (s.modGate f).period = s.period := rfl
@[simp] theorem State.modGate_controlDone (f : Gate → Gate) : (s.modGate f).controlDone = s.controlDone := rfl
@[simp] theorem State.modGate_airExpiries (f : Gate → Gate) : (s.modGate f).airExpiries = s.airExpiries := rfl
@[simp] theorem State.modGate_intervals (f : Gate → Gate) : (s.modGate f).intervals = s.intervals := rfl
@[simp] theorem State.modGate_reader (f : Gate → Gate) : (s.modGate f).reader = s.reader := rfl
@[simp] theorem State.modGate_records (f : Gate → Gate) : (s.modGate f).records = s.records := rfl
@[simp] theorem State.modGate_decks (f : Gate → Gate) : (s.modGate f).decks = s.decks := rfl
@[simp] theorem State.modGate_out (f : Gate → Gate) : (s.modGate f).out = s.out := rfl
@[simp] theorem State.modGate_monitor (f : Gate → Gate) : (s.modGate f).monitor = s.monitor := rfl
@[simp] theorem State.modGate_breaks (f : Gate → Gate) : (s.modGate f).breaks = s.breaks := rfl
@[simp] theorem State.modGate_bus (f : Gate → Gate) : (s.modGate f).bus = s.bus := rfl
@[simp] theorem State.modGate_peers (f : Gate → Gate) : (s.modGate f).peers = s.peers := rfl
@[simp] theorem State.modGate_pair (f : Gate → Gate) : (s.modGate f).pair = s.pair := rfl
@[simp] theorem State.modGate_log (f : Gate → Gate) : (s.modGate f).log = s.log := rfl
@[simp] theorem State.modGate_work (f : Gate → Gate) : (s.modGate f).work = s.work := rfl
@[simp] theorem State.modGate_pending (f : Gate → Gate) : (s.modGate f).pending = s.pending := rfl

@[simp] theorem State.modGroups_phase (f : GroupMonitor → GroupMonitor) : (s.modGroups f).phase = s.phase := rfl
@[simp] theorem State.modGroups_attempts (f : GroupMonitor → GroupMonitor) : (s.modGroups f).attempts = s.attempts := rfl
@[simp] theorem State.modGroups_configDefault (f : GroupMonitor → GroupMonitor) : (s.modGroups f).configDefault = s.configDefault := rfl
@[simp] theorem State.modGroups_cfg (f : GroupMonitor → GroupMonitor) : (s.modGroups f).cfg = s.cfg := rfl
@[simp] theorem State.modGroups_ownStation (f : GroupMonitor → GroupMonitor) : (s.modGroups f).ownStation = s.ownStation := rfl
@[simp] theorem State.modGroups_clock (f : GroupMonitor → GroupMonitor) : (s.modGroups f).clock = s.clock := rfl
@[simp] theorem State.modGroups_period (f : GroupMonitor → GroupMonitor) : (s.modGroups f).period = s.period := rfl
@[simp] theorem State.modGroups_controlDone (f : GroupMonitor → GroupMonitor) : (s.modGroups f).controlDone = s.controlDone := rfl
@[simp] theorem State.modGroups_airExpiries (f : GroupMonitor → GroupMonitor) : (s.modGroups f).airExpiries = s.airExpiries := rfl
@[simp] theorem State.modGroups_intervals (f : GroupMonitor → GroupMonitor) : (s.modGroups f).intervals = s.intervals := rfl
@[simp] theorem State.modGroups_reader (f : GroupMonitor → GroupMonitor) : (s.modGroups f).reader = s.reader := rfl
@[simp] theorem State.modGroups_records (f : GroupMonitor → GroupMonitor) : (s.modGroups f).records = s.records := rfl
@[simp] theorem State.modGroups_decks (f : GroupMonitor → GroupMonitor) : (s.modGroups f).decks = s.decks := rfl
@[simp] theorem State.modGroups_mix (f : GroupMonitor → GroupMonitor) : (s.modGroups f).mix = s.mix := rfl
@[simp] theorem State.modGroups_out (f : GroupMonitor → GroupMonitor) : (s.modGroups f).out = s.out := rfl
@[simp] theorem State.modGroups_breaks (f : GroupMonitor → GroupMonitor) : (s.modGroups f).breaks = s.breaks := rfl
@[simp] theorem State.modGroups_bus (f : GroupMonitor → GroupMonitor) : (s.modGroups f).bus = s.bus := rfl
@[simp] theorem State.modGroups_peers (f : GroupMonitor → GroupMonitor) : (s.modGroups f).peers = s.peers := rfl
@[simp] theorem State.modGroups_pair (f : GroupMonitor → GroupMonitor) : (s.modGroups f).pair = s.pair := rfl
@[simp] theorem State.modGroups_log (f : GroupMonitor → GroupMonitor) : (s.modGroups f).log = s.log := rfl
@[simp] theorem State.modGroups_work (f : GroupMonitor → GroupMonitor) : (s.modGroups f).work = s.work := rfl
@[simp] theorem State.modGroups_pending (f : GroupMonitor → GroupMonitor) : (s.modGroups f).pending = s.pending := rfl

@[simp] theorem State.setGroup_phase (a : Fin 3) (g : GroupMonitor) : (s.setGroup a g).phase = s.phase := rfl
@[simp] theorem State.setGroup_attempts (a : Fin 3) (g : GroupMonitor) : (s.setGroup a g).attempts = s.attempts := rfl
@[simp] theorem State.setGroup_configDefault (a : Fin 3) (g : GroupMonitor) : (s.setGroup a g).configDefault = s.configDefault := rfl
@[simp] theorem State.setGroup_cfg (a : Fin 3) (g : GroupMonitor) : (s.setGroup a g).cfg = s.cfg := rfl
@[simp] theorem State.setGroup_ownStation (a : Fin 3) (g : GroupMonitor) : (s.setGroup a g).ownStation = s.ownStation := rfl
@[simp] theorem State.setGroup_clock (a : Fin 3) (g : GroupMonitor) : (s.setGroup a g).clock = s.clock := rfl
@[simp] theorem State.setGroup_period (a : Fin 3) (g : GroupMonitor) : (s.setGroup a g).period = s.period := rfl
@[simp] theorem State.setGroup_controlDone (a : Fin 3) (g : GroupMonitor) : (s.setGroup a g).controlDone = s.controlDone := rfl
@[simp] theorem State.setGroup_airExpiries (a : Fin 3) (g : GroupMonitor) : (s.setGroup a g).airExpiries = s.airExpiries := rfl
@[simp] theorem State.setGroup_intervals (a : Fin 3) (g : GroupMonitor) : (s.setGroup a g).intervals = s.intervals := rfl
@[simp] theorem State.setGroup_reader (a : Fin 3) (g : GroupMonitor) : (s.setGroup a g).reader = s.reader := rfl
@[simp] theorem State.setGroup_records (a : Fin 3) (g : GroupMonitor) : (s.setGroup a g).records = s.records := rfl
@[simp] theorem State.setGroup_decks (a : Fin 3) (g : GroupMonitor) : (s.setGroup a g).decks = s.decks := rfl
@[simp] theorem State.setGroup_mix (a : Fin 3) (g : GroupMonitor) : (s.setGroup a g).mix = s.mix := rfl
@[simp] theorem State.setGroup_out (a : Fin 3) (g : GroupMonitor) : (s.setGroup a g).out = s.out := rfl
@[simp] theorem State.setGroup_breaks (a : Fin 3) (g : GroupMonitor) : (s.setGroup a g).breaks = s.breaks := rfl
@[simp] theorem State.setGroup_bus (a : Fin 3) (g : GroupMonitor) : (s.setGroup a g).bus = s.bus := rfl
@[simp] theorem State.setGroup_peers (a : Fin 3) (g : GroupMonitor) : (s.setGroup a g).peers = s.peers := rfl
@[simp] theorem State.setGroup_pair (a : Fin 3) (g : GroupMonitor) : (s.setGroup a g).pair = s.pair := rfl
@[simp] theorem State.setGroup_log (a : Fin 3) (g : GroupMonitor) : (s.setGroup a g).log = s.log := rfl
@[simp] theorem State.setGroup_work (a : Fin 3) (g : GroupMonitor) : (s.setGroup a g).work = s.work := rfl
@[simp] theorem State.setGroup_pending (a : Fin 3) (g : GroupMonitor) : (s.setGroup a g).pending = s.pending := rfl

@[simp] theorem State.nextStamp_phase : s.nextStamp.phase = s.phase := rfl
@[simp] theorem State.nextStamp_attempts : s.nextStamp.attempts = s.attempts := rfl
@[simp] theorem State.nextStamp_configDefault : s.nextStamp.configDefault = s.configDefault := rfl
@[simp] theorem State.nextStamp_cfg : s.nextStamp.cfg = s.cfg := rfl
@[simp] theorem State.nextStamp_ownStation : s.nextStamp.ownStation = s.ownStation := rfl
@[simp] theorem State.nextStamp_clock : s.nextStamp.clock = s.clock := rfl
@[simp] theorem State.nextStamp_period : s.nextStamp.period = s.period := rfl
@[simp] theorem State.nextStamp_controlDone : s.nextStamp.controlDone = s.controlDone := rfl
@[simp] theorem State.nextStamp_airExpiries : s.nextStamp.airExpiries = s.airExpiries := rfl
@[simp] theorem State.nextStamp_intervals : s.nextStamp.intervals = s.intervals := rfl
@[simp] theorem State.nextStamp_reader : s.nextStamp.reader = s.reader := rfl
@[simp] theorem State.nextStamp_records : s.nextStamp.records = s.records := rfl
@[simp] theorem State.nextStamp_decks : s.nextStamp.decks = s.decks := rfl
@[simp] theorem State.nextStamp_mix : s.nextStamp.mix = s.mix := rfl
@[simp] theorem State.nextStamp_out : s.nextStamp.out = s.out := rfl
@[simp] theorem State.nextStamp_monitor : s.nextStamp.monitor = s.monitor := rfl
@[simp] theorem State.nextStamp_breaks : s.nextStamp.breaks = s.breaks := rfl
@[simp] theorem State.nextStamp_bus : s.nextStamp.bus = s.bus := rfl
@[simp] theorem State.nextStamp_pair : s.nextStamp.pair = s.pair := rfl
@[simp] theorem State.nextStamp_log : s.nextStamp.log = s.log := rfl
@[simp] theorem State.nextStamp_work : s.nextStamp.work = s.work := rfl
@[simp] theorem State.nextStamp_pending : s.nextStamp.pending = s.pending := rfl

@[simp] theorem State.modRecord_records (tag : Nat) (f : CueRecord → CueRecord) :
    (s.modRecord tag f).records = s.records.map fun r => if r.tag = tag then f r else r := rfl
@[simp] theorem State.emit_work (ts : List Task) : (s.emit ts).work = s.work ++ ts := rfl
@[simp] theorem State.modReader_reader (f : StoreReader → StoreReader) : (s.modReader f).reader = f s.reader := rfl
@[simp] theorem State.modBus_bus (f : CueBus → CueBus) : (s.modBus f).bus = f s.bus := rfl
@[simp] theorem State.modGate_gate (f : Gate → Gate) : (s.modGate f).mix.gate = f s.mix.gate := rfl

/-- A changed deck reads back. -/
@[simp] theorem State.deck_setDeck_self (d : DeckNo) (x : Deck) : (s.setDeck d x).deck d = x := by
  simp [State.deck, State.setDeck]

/-- Another deck is as it was. -/
theorem State.deck_setDeck_ne (d e : DeckNo) (x : Deck) (h : d ≠ e) : (s.setDeck d x).deck e = s.deck e := by
  have h' : d.val ≠ e.val := fun c => h (Fin.ext c)
  simp [State.deck, State.setDeck, h']

/-- Reading a deck after one deck is set. -/
theorem State.deck_setDeck (d e : DeckNo) (x : Deck) : (s.setDeck d x).deck e = if d = e then x else s.deck e := by
  split
  · rename_i h; subst h; simp
  · rename_i h; exact s.deck_setDeck_ne d e x h

/-- A changed peer entry reads back. -/
@[simp] theorem State.peer_modPeer_self (q : Station) (f : Peer → Peer) : (s.modPeer q f).peer q = f (s.peer q) := by
  simp [State.peer, State.modPeer]

/-- Another peer entry is as it was. -/
theorem State.peer_modPeer_ne (p q : Station) (f : Peer → Peer) (h : p ≠ q) : (s.modPeer p f).peer q = s.peer q := by
  have h' : p.val ≠ q.val := fun c => h (Fin.ext c)
  simp [State.peer, State.modPeer, h']

/-- A changed break entry reads back. -/
@[simp] theorem State.entry_setEntry_self (e : EntryNo) (x : BreakEntry) : (s.setEntry e x).entry e = x := by
  simp [State.entry, State.setEntry]

/-- Another break entry is as it was. -/
theorem State.entry_setEntry_ne (d e : EntryNo) (x : BreakEntry) (h : d ≠ e) : (s.setEntry d x).entry e = s.entry e := by
  have h' : d.val ≠ e.val := fun c => h (Fin.ext c)
  simp [State.entry, State.setEntry, h']

@[simp] theorem State.markTriggered_phase (tag : Nat) : (s.markTriggered tag).phase = s.phase := rfl
@[simp] theorem State.markTriggered_attempts (tag : Nat) : (s.markTriggered tag).attempts = s.attempts := rfl
@[simp] theorem State.markTriggered_configDefault (tag : Nat) : (s.markTriggered tag).configDefault = s.configDefault := rfl
@[simp] theorem State.markTriggered_cfg (tag : Nat) : (s.markTriggered tag).cfg = s.cfg := rfl
@[simp] theorem State.markTriggered_ownStation (tag : Nat) : (s.markTriggered tag).ownStation = s.ownStation := rfl
@[simp] theorem State.markTriggered_clock (tag : Nat) : (s.markTriggered tag).clock = s.clock := rfl
@[simp] theorem State.markTriggered_period (tag : Nat) : (s.markTriggered tag).period = s.period := rfl
@[simp] theorem State.markTriggered_controlDone (tag : Nat) : (s.markTriggered tag).controlDone = s.controlDone := rfl
@[simp] theorem State.markTriggered_airExpiries (tag : Nat) : (s.markTriggered tag).airExpiries = s.airExpiries := rfl
@[simp] theorem State.markTriggered_intervals (tag : Nat) : (s.markTriggered tag).intervals = s.intervals := rfl
@[simp] theorem State.markTriggered_reader (tag : Nat) : (s.markTriggered tag).reader = s.reader := rfl
@[simp] theorem State.markTriggered_decks (tag : Nat) : (s.markTriggered tag).decks = s.decks := rfl
@[simp] theorem State.markTriggered_mix (tag : Nat) : (s.markTriggered tag).mix = s.mix := rfl
@[simp] theorem State.markTriggered_out (tag : Nat) : (s.markTriggered tag).out = s.out := rfl
@[simp] theorem State.markTriggered_monitor (tag : Nat) : (s.markTriggered tag).monitor = s.monitor := rfl
@[simp] theorem State.markTriggered_breaks (tag : Nat) : (s.markTriggered tag).breaks = s.breaks := rfl
@[simp] theorem State.markTriggered_bus (tag : Nat) : (s.markTriggered tag).bus = s.bus := rfl
@[simp] theorem State.markTriggered_peers (tag : Nat) : (s.markTriggered tag).peers = s.peers := rfl
@[simp] theorem State.markTriggered_pair (tag : Nat) : (s.markTriggered tag).pair = s.pair := rfl
@[simp] theorem State.markTriggered_log (tag : Nat) : (s.markTriggered tag).log = s.log := rfl
@[simp] theorem State.markTriggered_work (tag : Nat) : (s.markTriggered tag).work = s.work := rfl
@[simp] theorem State.markTriggered_pending (tag : Nat) : (s.markTriggered tag).pending = s.pending := rfl
@[simp] theorem State.markTriggered_records (tag : Nat) :
    (s.markTriggered tag).records = s.records.map fun r => if r.tag = tag then { r with triggered := true } else r := rfl

@[simp] theorem State.markShadow_phase (tag : Nat) (t : Option Nat) : (s.markShadow tag t).phase = s.phase := rfl
@[simp] theorem State.markShadow_attempts (tag : Nat) (t : Option Nat) : (s.markShadow tag t).attempts = s.attempts := rfl
@[simp] theorem State.markShadow_configDefault (tag : Nat) (t : Option Nat) : (s.markShadow tag t).configDefault = s.configDefault := rfl
@[simp] theorem State.markShadow_cfg (tag : Nat) (t : Option Nat) : (s.markShadow tag t).cfg = s.cfg := rfl
@[simp] theorem State.markShadow_ownStation (tag : Nat) (t : Option Nat) : (s.markShadow tag t).ownStation = s.ownStation := rfl
@[simp] theorem State.markShadow_clock (tag : Nat) (t : Option Nat) : (s.markShadow tag t).clock = s.clock := rfl
@[simp] theorem State.markShadow_period (tag : Nat) (t : Option Nat) : (s.markShadow tag t).period = s.period := rfl
@[simp] theorem State.markShadow_controlDone (tag : Nat) (t : Option Nat) : (s.markShadow tag t).controlDone = s.controlDone := rfl
@[simp] theorem State.markShadow_airExpiries (tag : Nat) (t : Option Nat) : (s.markShadow tag t).airExpiries = s.airExpiries := rfl
@[simp] theorem State.markShadow_intervals (tag : Nat) (t : Option Nat) : (s.markShadow tag t).intervals = s.intervals := rfl
@[simp] theorem State.markShadow_reader (tag : Nat) (t : Option Nat) : (s.markShadow tag t).reader = s.reader := rfl
@[simp] theorem State.markShadow_decks (tag : Nat) (t : Option Nat) : (s.markShadow tag t).decks = s.decks := rfl
@[simp] theorem State.markShadow_mix (tag : Nat) (t : Option Nat) : (s.markShadow tag t).mix = s.mix := rfl
@[simp] theorem State.markShadow_out (tag : Nat) (t : Option Nat) : (s.markShadow tag t).out = s.out := rfl
@[simp] theorem State.markShadow_monitor (tag : Nat) (t : Option Nat) : (s.markShadow tag t).monitor = s.monitor := rfl
@[simp] theorem State.markShadow_breaks (tag : Nat) (t : Option Nat) : (s.markShadow tag t).breaks = s.breaks := rfl
@[simp] theorem State.markShadow_bus (tag : Nat) (t : Option Nat) : (s.markShadow tag t).bus = s.bus := rfl
@[simp] theorem State.markShadow_peers (tag : Nat) (t : Option Nat) : (s.markShadow tag t).peers = s.peers := rfl
@[simp] theorem State.markShadow_pair (tag : Nat) (t : Option Nat) : (s.markShadow tag t).pair = s.pair := rfl
@[simp] theorem State.markShadow_log (tag : Nat) (t : Option Nat) : (s.markShadow tag t).log = s.log := rfl
@[simp] theorem State.markShadow_work (tag : Nat) (t : Option Nat) : (s.markShadow tag t).work = s.work := rfl
@[simp] theorem State.markShadow_pending (tag : Nat) (t : Option Nat) : (s.markShadow tag t).pending = s.pending := rfl
@[simp] theorem State.markShadow_records (tag : Nat) (t : Option Nat) :
    (s.markShadow tag t).records = s.records.map fun r =>
      if r.tag = tag then { r with triggered := true, shadowStart := r.shadowStart.or t } else r := rfl

@[simp] theorem State.clearTimers_phase : (s.clearTimers).phase = s.phase := rfl
@[simp] theorem State.clearTimers_attempts : (s.clearTimers).attempts = s.attempts := rfl
@[simp] theorem State.clearTimers_configDefault : (s.clearTimers).configDefault = s.configDefault := rfl
@[simp] theorem State.clearTimers_cfg : (s.clearTimers).cfg = s.cfg := rfl
@[simp] theorem State.clearTimers_ownStation : (s.clearTimers).ownStation = s.ownStation := rfl
@[simp] theorem State.clearTimers_clock : (s.clearTimers).clock = s.clock := rfl
@[simp] theorem State.clearTimers_period : (s.clearTimers).period = s.period := rfl
@[simp] theorem State.clearTimers_controlDone : (s.clearTimers).controlDone = s.controlDone := rfl
@[simp] theorem State.clearTimers_airExpiries : (s.clearTimers).airExpiries = s.airExpiries := rfl
@[simp] theorem State.clearTimers_intervals : (s.clearTimers).intervals = s.intervals := rfl
@[simp] theorem State.clearTimers_reader : (s.clearTimers).reader = s.reader := rfl
@[simp] theorem State.clearTimers_records : (s.clearTimers).records = s.records := rfl
@[simp] theorem State.clearTimers_decks : (s.clearTimers).decks = s.decks := rfl
@[simp] theorem State.clearTimers_mix : (s.clearTimers).mix = s.mix := rfl
@[simp] theorem State.clearTimers_out : (s.clearTimers).out = s.out := rfl
@[simp] theorem State.clearTimers_breaks : (s.clearTimers).breaks = s.breaks := rfl
@[simp] theorem State.clearTimers_bus : (s.clearTimers).bus = s.bus := rfl
@[simp] theorem State.clearTimers_peers : (s.clearTimers).peers = s.peers := rfl
@[simp] theorem State.clearTimers_pair : (s.clearTimers).pair = s.pair := rfl
@[simp] theorem State.clearTimers_log : (s.clearTimers).log = s.log := rfl
@[simp] theorem State.clearTimers_work : (s.clearTimers).work = s.work := rfl
@[simp] theorem State.clearTimers_pending : (s.clearTimers).pending = s.pending := rfl
@[simp] theorem State.clearTimers_monitor :
    (s.clearTimers).monitor = { s.monitor with timers := Vector.replicate 4 0 } := rfl

@[simp] theorem State.saveDucks_phase : (s.saveDucks).phase = s.phase := rfl
@[simp] theorem State.saveDucks_attempts : (s.saveDucks).attempts = s.attempts := rfl
@[simp] theorem State.saveDucks_configDefault : (s.saveDucks).configDefault = s.configDefault := rfl
@[simp] theorem State.saveDucks_cfg : (s.saveDucks).cfg = s.cfg := rfl
@[simp] theorem State.saveDucks_ownStation : (s.saveDucks).ownStation = s.ownStation := rfl
@[simp] theorem State.saveDucks_clock : (s.saveDucks).clock = s.clock := rfl
@[simp] theorem State.saveDucks_period : (s.saveDucks).period = s.period := rfl
@[simp] theorem State.saveDucks_controlDone : (s.saveDucks).controlDone = s.controlDone := rfl
@[simp] theorem State.saveDucks_airExpiries : (s.saveDucks).airExpiries = s.airExpiries := rfl
@[simp] theorem State.saveDucks_intervals : (s.saveDucks).intervals = s.intervals := rfl
@[simp] theorem State.saveDucks_reader : (s.saveDucks).reader = s.reader := rfl
@[simp] theorem State.saveDucks_records : (s.saveDucks).records = s.records := rfl
@[simp] theorem State.saveDucks_decks : (s.saveDucks).decks = s.decks := rfl
@[simp] theorem State.saveDucks_out : (s.saveDucks).out = s.out := rfl
@[simp] theorem State.saveDucks_monitor : (s.saveDucks).monitor = s.monitor := rfl
@[simp] theorem State.saveDucks_breaks : (s.saveDucks).breaks = s.breaks := rfl
@[simp] theorem State.saveDucks_bus : (s.saveDucks).bus = s.bus := rfl
@[simp] theorem State.saveDucks_peers : (s.saveDucks).peers = s.peers := rfl
@[simp] theorem State.saveDucks_pair : (s.saveDucks).pair = s.pair := rfl
@[simp] theorem State.saveDucks_log : (s.saveDucks).log = s.log := rfl
@[simp] theorem State.saveDucks_work : (s.saveDucks).work = s.work := rfl
@[simp] theorem State.saveDucks_pending : (s.saveDucks).pending = s.pending := rfl

end Sys2Proof.Machine
end

