-- ==== Sys2Proof/Laws/After.lean ====
section
/-! SUPPORT. What a reaction inside a command can do, operation by operation: each leads to a state that `State.After`
allows. -/

namespace Sys2Proof.Machine

set_option Elab.async false

/-! ### The relation -/

theorem State.After.refl (s : State) : s.After s :=
  ⟨rfl, List.prefix_rfl, id, id, id, fun _ h => .inl h, fun _ => le_rfl, fun _ => le_rfl⟩

theorem State.After.trans {s t u : State} (h : s.After t) (k : t.After u) : s.After u where
  still := k.still.trans h.still
  appends := h.appends.trans k.appends
  log := k.log ∘ h.log
  queue := k.queue ∘ h.queue
  order := k.order ∘ h.order
  tags x hx := (k.tags x hx).elim (h.tags x) .inr
  ducks d := (k.ducks d).trans (h.ducks d)
  bases d := (k.bases d).trans (h.bases d)

/-- Transitivity, the outer operation first. -/
theorem State.After.andThen {s t u : State} (k : t.After u) (h : s.After t) : s.After u := h.trans k

/-- Either branch of a choice. -/
theorem State.After.ite {s t u : State} {c : Prop} [Decidable c] (h : s.After t) (k : s.After u) :
    s.After (if c then t else u) := by
  split
  · exact h
  · exact k

/-- A change of neither log nor queue that keeps or removes records. -/
theorem State.After.of_sub {s t : State} (h1 : t.still = s.still) (h2 : t.log = s.log) (h3 : t.bus.queue = s.bus.queue)
    (h4 : t.tags.Sublist s.tags) (h5 : ∀ d : DeckNo, (t.deck d).duckValue ≤ (s.deck d).duckValue)
    (h6 : ∀ d : DeckNo, t.mix.duckBase[d] ≤ s.mix.duckBase[d] := by exact fun _ => le_rfl) : s.After t where
  still := h1
  appends := by rw [h2]
  log := by rw [h2]; exact id
  queue := by rw [h3]; exact id
  order h := ⟨by have := h4.length_le; simp only [State.tags, List.length_map] at this; exact this.trans h.1, h4.nodup h.2⟩
  tags x hx := .inl (h4.subset hx)
  ducks := h5
  bases := h6

/-- A change of neither log, queue, tags nor decks. -/
theorem State.After.of_eq {s t : State} (h1 : t.still = s.still) (h2 : t.log = s.log) (h3 : t.bus.queue = s.bus.queue)
    (h4 : t.tags = s.tags) (h5 : t.decks = s.decks)
    (h6 : ∀ d : DeckNo, t.mix.duckBase[d] ≤ s.mix.duckBase[d] := by exact fun _ => le_rfl) : s.After t :=
  .of_sub h1 h2 h3 (h4 ▸ List.Sublist.refl _) (fun d => by simp [State.deck, h5]) h6

variable {s : State}

/-- A fold of operations. -/
theorem State.After.foldl {α : Type} (f : State → α → State) (hf : ∀ (s : State) (a : α), s.After (f s a)) (l : List α) (s : State) :
    s.After (l.foldl f s) := by
  induction l generalizing s with
  | nil => exact .refl s
  | cons a l ih => exact (hf s a).trans (ih _)

/-! ### One part changed -/

theorem State.after_setDeck (d : DeckNo) (x : Deck) (h : x.duckValue ≤ (s.deck d).duckValue) : s.After (s.setDeck d x) :=
  .of_sub rfl rfl rfl (List.Sublist.refl _) fun e => by
    rw [State.deck_setDeck]
    split
    · rename_i k; exact k ▸ h
    · exact le_rfl

theorem State.after_modDeck (d : DeckNo) (f : Deck → Deck) (h : ∀ x, (f x).duckValue ≤ x.duckValue) : s.After (s.modDeck d f) :=
  s.after_setDeck d _ (h _)

theorem State.tags_modRecord (s : State) (tag : Nat) (f : CueRecord → CueRecord) (h : ∀ r, (f r).tag = r.tag) :
    (s.modRecord tag f).tags = s.tags := by
  simp only [State.tags, State.modRecord_records, List.map_map]
  refine List.map_congr_left fun r _ => ?_
  simp only [Function.comp_apply]
  split
  · exact h r
  · rfl

theorem State.after_modRecord (tag : Nat) (f : CueRecord → CueRecord) (h : ∀ r, (f r).tag = r.tag) :
    s.After (s.modRecord tag f) :=
  .of_eq rfl rfl rfl (s.tags_modRecord tag f h) rfl

theorem State.after_setEntry (e : EntryNo) (x : BreakEntry) : s.After (s.setEntry e x) := .of_eq rfl rfl rfl rfl rfl

theorem State.after_modEntry (e : EntryNo) (f : BreakEntry → BreakEntry) : s.After (s.modEntry e f) := .of_eq rfl rfl rfl rfl rfl

theorem State.after_modReader (f : StoreReader → StoreReader) : s.After (s.modReader f) := .of_eq rfl rfl rfl rfl rfl

theorem State.after_setTimer (d : DeckNo) (n : Nat) : s.After (s.setTimer d n) := .of_eq rfl rfl rfl rfl rfl

theorem State.after_emit (ts : List Task) : s.After (s.emit ts) := .of_eq rfl rfl rfl rfl rfl

theorem State.after_work (ts : List Task) : s.After { s with work := ts } := .of_eq rfl rfl rfl rfl rfl

theorem State.after_cancelAir (h : AirHandle) : s.After (s.cancelAir h) := .of_eq rfl rfl rfl rfl rfl

theorem State.after_setAir (h : AirHandle) (t : Nat) : s.After (s.setAir h t) := by
  unfold State.setAir
  dsimp only
  split <;> exact .of_eq rfl rfl rfl rfl rfl

theorem State.after_setAirOpt (h : AirHandle) (t : Option Nat) : s.After (s.setAirOpt h t) := by
  cases t with
  | none => exact .refl s
  | some t => exact s.after_setAir h t

theorem State.after_setRequest (d : DeckNo) (q : Option DuckRequest) : s.After (s.setRequest d q) := .of_eq rfl rfl rfl rfl rfl

theorem State.after_zeroWords (d : DeckNo) : s.After (s.zeroWords d) :=
  .of_eq rfl rfl rfl rfl rfl fun e => by
    simp only [State.zeroWords, Fin.getElem_fin, Vector.getElem_set]
    split
    · exact Nat.zero_le _
    · exact le_rfl

/-- The read timeout is the one interval expiry that a reaction may cancel. -/
theorem State.after_cancelTimeout : s.After (s.cancelInterval .readTimeout) :=
  .of_eq (by simp [State.still, State.cancelInterval]) rfl rfl rfl rfl

/-- The read timeout is the one interval expiry that a reaction may set. -/
theorem State.after_setTimeout (n : Nat) : s.After (s.setInterval .readTimeout n) :=
  .of_eq (by simp [State.still, State.setInterval, State.cancelInterval, List.filter_append]) rfl rfl rfl rfl

/-- Records removed by a filter. -/
theorem State.after_filter (p : CueRecord → Bool) : s.After { s with records := s.records.filter p } :=
  .of_sub rfl rfl rfl (List.filter_sublist.map _) fun _ => le_rfl

/-! ### The transmit queue and the as-run log -/

theorem insertQueued_length (q : Queued) (l : List Queued) : (insertQueued q l).length = l.length + 1 := by
  induction l with
  | nil => rfl
  | cons x xs ih => simp only [insertQueued]; split <;> simp [ih]

/-- A handed notice changes the queue, TX_DISCARD and the handing count, and keeps the queue within 8. -/
theorem CueBus.handPlain_keeps (b : CueBus) (n : Notice) :
    { (b.handPlain n).1 with queue := [], txDiscard := false, handed := 0 }
        = { b with queue := [], txDiscard := false, handed := 0 }
      ∧ (b.queue.length ≤ 8 → (b.handPlain n).1.queue.length ≤ 8) := by
  unfold CueBus.handPlain
  split
  · exact ⟨rfl, fun _ => by simp only [CueBus.join, insertQueued_length]; omega⟩
  · split
    · exact ⟨rfl, id⟩
    · rename_i hlt q hq
      have hmem : q ∈ b.queue := List.mem_of_mem_filter (List.mem_of_getLast? hq)
      have hdrop : (b.queue.filter fun x => x.order != q.order).length < b.queue.length :=
        List.length_filter_lt_length_iff_exists.mpr ⟨q, hmem, by simp⟩
      split
      · dsimp only
        split <;> exact ⟨rfl, fun _ => by simp only [CueBus.join, insertQueued_length]; omega⟩
      · exact ⟨rfl, id⟩

theorem State.after_judgeOffer : s.After s.judgeOffer := by
  unfold State.judgeOffer
  split
  · split
    · refine ⟨rfl, List.prefix_rfl, id, fun _ => ?_, id, fun _ h => .inl h, fun _ => le_rfl, fun _ => le_rfl⟩
      simp only [CueBus.join, insertQueued_length]; omega
    · exact .refl s
  · exact .refl s

theorem State.after_unoffer : s.After s.unoffer :=
  State.After.trans (t := { s with log := { s.log with offer := none } })
    ⟨rfl, List.prefix_rfl, id, id, id, fun _ h => .inl h, fun _ => le_rfl, fun _ => le_rfl⟩ State.after_judgeOffer

/-- Every notice but a STATUS is handed by R150 and R152 alone. -/
theorem State.hand_eq (s : State) (n : Notice) (h : n.isStatus = false) :
    s.hand n = if (s.bus.handPlain n).2 then State.unoffer { s with bus := (s.bus.handPlain n).1 }
      else { s with bus := (s.bus.handPlain n).1 } := by
  cases n <;> first | rfl | simp [Notice.isStatus] at h

theorem State.after_bus (b : CueBus) (h1 : { b with queue := [], txDiscard := false, handed := 0 }
      = ({ s.bus with queue := [], txDiscard := false, handed := 0 } : CueBus))
    (h2 : s.bus.queue.length ≤ 8 → b.queue.length ≤ 8) : s.After { s with bus := b } :=
  ⟨by simp only [State.still, h1], List.prefix_rfl, id, h2, id, fun _ h => .inl h, fun _ => le_rfl, fun _ => le_rfl⟩

theorem State.after_hand (n : Notice) (h : n.isStatus = false) : s.After (s.hand n) := by
  rw [s.hand_eq n h]
  have k := s.bus.handPlain_keeps n
  have hb := State.after_bus (s := s) _ k.1 k.2
  split
  · exact hb.trans State.after_unoffer
  · exact hb

theorem State.after_handLive (n : Notice) (h : n.isStatus = false) : s.After (s.handLive n) := by
  unfold State.handLive
  split
  · exact s.after_hand n h
  · exact .refl s

/-- The log appends an offered record while it holds fewer than 32, else counts it (R191). -/
theorem State.after_storeAsRun (r : AsRun) : s.After (s.storeAsRun r) := by
  unfold State.storeAsRun
  refine State.After.trans ?_ State.after_judgeOffer
  split
  · refine ⟨rfl, List.prefix_append _ _, fun h => ⟨?_, Nat.mod_lt _ (by decide), h.2.2⟩, id, id, fun _ h => .inl h,
      fun _ => le_rfl, fun _ => le_rfl⟩
    simp only [List.length_append, List.length_cons, List.length_nil]; omega
  · exact ⟨rfl, List.prefix_rfl, fun h => ⟨h.1, h.2.1, Nat.min_le_left _ _⟩, id, id, fun _ h => .inl h, fun _ => le_rfl, fun _ => le_rfl⟩

end Sys2Proof.Machine
end

