-- ==== Sys2Proof/Laws/AfterOps.lean ====
section
/-! SUPPORT. `State.After` for the shared operations of the store reader, the departures, the decks, the running order, the
break fitter and peer coupling, and for a whole command's reactions. -/

namespace Sys2Proof.Machine

set_option Elab.async false

variable {s : State}

/-! ### Store reader -/

theorem State.after_makeRoom : s.After s.makeRoom := by
  unfold State.makeRoom
  split
  · exact .refl s
  · split
    · exact s.after_modReader _
    · exact .refl s

theorem State.after_askRecordFetch (tag cart : Nat) : s.After (s.askRecordFetch tag cart) := by
  unfold State.askRecordFetch
  split
  · exact s.after_modReader _
  · split <;> exact s.after_modReader _

theorem State.after_askFillFetch (e : EntryNo) : s.After (s.askFillFetch e) := by
  unfold State.askFillFetch
  split <;> exact s.after_modReader _

theorem State.after_abandonDeckRead (d : DeckNo) : s.After (s.abandonDeckRead d) := s.after_modReader _

theorem State.after_withdrawFetch (o : Owner) : s.After (s.withdrawFetch o) := by
  unfold State.withdrawFetch
  have h (u : State) (hu : s.After u) : s.After (if (u.reader.queue.any fun f => f.owner == o) = true then
      State.makeRoom (u.modReader fun r => { r with queue := r.queue.filter fun f => f.owner != o }) else u) :=
    .ite (.andThen State.after_makeRoom (.andThen (State.after_modReader _) hu)) hu
  exact h _ (.andThen (State.after_modReader _) (.ite (s.after_modReader _) (.refl s)))

theorem State.after_clearReader : s.After s.clearReader := s.after_modReader _

theorem State.after_issue (p : Purpose) (u n : Nat) (b : Bool) : s.After (s.issue p u n b) :=
  .andThen (State.after_setTimeout _) (s.after_modReader _)

theorem State.after_grantDeck (d : DeckNo) : s.After (s.grantDeck d) := by
  unfold State.grantDeck
  dsimp only
  split
  · exact .andThen (State.after_issue _ _ _ _) (.andThen (State.after_modReader _) (s.after_setDeck d _ le_rfl))
  · exact .refl s

theorem State.after_grantHeader : s.After s.grantHeader := by
  unfold State.grantHeader
  split
  · split
    · exact .andThen (State.after_issue _ _ _ _) (s.after_modReader _)
    · exact .refl s
  · split
    · exact .refl s
    · rename_i rest _
      have h := State.After.andThen State.after_makeRoom (s.after_modReader fun r => { r with queue := rest })
      exact .ite (.andThen (State.after_emit _) h) (.andThen (State.after_issue _ _ _ _) (.andThen (State.after_modReader _) h))

theorem State.after_grant : s.After s.grant := by
  unfold State.grant
  split
  · exact .refl s
  · split
    · exact s.after_grantDeck _
    · split
      · exact s.after_grantHeader
      · split
        · exact s.after_grantDeck _
        · exact .refl s

/-! ### Departures -/

theorem State.after_idleDeck (d : DeckNo) : s.After (s.idleDeck d) :=
  .andThen (State.after_setTimer d 0) (.andThen (State.after_modDeck d _ fun _ => Nat.zero_le _) (s.after_abandonDeckRead d))

theorem State.after_closeDeck (d : DeckNo) : s.After (s.closeDeck d) :=
  .andThen (State.after_setTimer d 0) (.andThen (State.after_modDeck d _ fun _ => Nat.zero_le _) (s.after_abandonDeckRead d))

theorem State.after_freeDeck (d : DeckNo) (ended : Bool) : s.After (s.freeDeck d ended) :=
  .ite (s.after_closeDeck d) (s.after_idleDeck d)

theorem State.after_deckIdleAt (d : DeckNo) : s.After (s.deckIdleAt d) :=
  .ite (s.after_modDeck d _ fun _ => le_rfl) (.refl s)

theorem State.after_fillLeft (r : CueRecord) (b : Bool) : s.After (s.fillLeft r b) := by
  unfold State.fillLeft
  split
  · exact .refl s
  · split
    · split
      · exact .refl s
      · exact .andThen (State.after_modEntry _ _) (s.after_cancelAir _)
    · exact .refl s

theorem State.after_cancelRecordExpiries (tag : Nat) : s.After (s.cancelRecordExpiries tag) :=
  .andThen (State.after_cancelAir _) (.andThen (State.after_cancelAir _) (s.after_cancelAir _))

theorem State.after_removeRecord (tag : Nat) (c : Cause) (b : Bool) : s.After (s.removeRecord tag c b) := by
  unfold State.removeRecord
  split
  · exact .refl s
  · rename_i r _
    dsimp only
    have h (u : State) (hu : s.After u) : s.After (match r.deck with | none => u | some d => u.freeDeck d r.sounding) := by
      split
      · exact hu
      · exact .andThen (State.after_freeDeck _ _) hu
    exact h _ (.andThen (State.after_fillLeft _ b) (.andThen (State.after_withdrawFetch _)
      (.andThen (State.after_cancelRecordExpiries _) (.andThen (State.after_work _) (.andThen (State.after_filter _) (s.after_storeAsRun _))))))

theorem State.after_depart (tag : Nat) (c : Cause) : s.After (s.depart tag c) := by
  unfold State.depart
  split
  · exact .refl s
  · exact .andThen (State.after_emit _) (s.after_removeRecord _ _ _)

/-! ### Decks -/

theorem State.after_activateDuck (d : DeckNo) (tag : Nat) (it : Item) : s.After (s.activateDuck d tag it) := by
  unfold State.activateDuck
  split
  · exact .refl s
  · exact .andThen (State.after_handLive _ rfl) (s.after_setRequest _ _)

theorem State.after_withdrawDuck (d : DeckNo) : s.After (s.withdrawDuck d) := by
  unfold State.withdrawDuck
  split
  · exact .refl s
  · exact .andThen (State.after_handLive _ rfl) (s.after_setRequest _ _)

theorem State.after_endItem (d : DeckNo) (c : Cause) : s.After (s.endItem d c) := by
  unfold State.endItem
  dsimp only
  split
  · split
    · exact .refl s
    · exact .andThen (State.after_depart _ _) (.andThen (State.after_handLive _ rfl) (s.after_withdrawDuck d))
  · exact .refl s

theorem State.after_enterFade (d : DeckNo) (len : Nat) (law : Law) (c : Cause) (pos : Nat) :
    s.After (s.enterFade d len law c pos) := by
  unfold State.enterFade
  split
  · exact s.after_endItem d c
  · exact .andThen (State.after_withdrawDuck d) (s.after_modDeck d _ fun _ => le_rfl)

theorem State.after_requestFade (d : DeckNo) (len : Nat) (law : Law) (c : Cause) (e : Nat) :
    s.After (s.requestFade d len law c e) := by
  unfold State.requestFade
  split
  · exact .refl s
  · exact s.after_enterFade _ _ _ _ _

theorem State.after_applyTruncation (d : DeckNo) : s.After (s.applyTruncation d) := by
  unfold State.applyTruncation
  dsimp only
  split
  · split
    · exact .refl s
    · exact s.after_setDeck d _ le_rfl
  · exact .refl s

theorem State.after_takeSegue (d : DeckNo) (t : Nat) : s.After (s.takeSegue d t) := by
  unfold State.takeSegue
  dsimp only
  split
  · split
    · exact .refl s
    · have h := s.after_modDeck d (fun x => { x with segued := true }) fun _ => le_rfl
      exact .andThen (State.after_emit _) (.andThen (State.after_handLive _ rfl) h)
  · exact .refl s

theorem State.after_segueMarkAt (d : DeckNo) : s.After (s.segueMarkAt d) := by
  unfold State.segueMarkAt
  dsimp only
  split
  · split
    · exact s.after_takeSegue _ _
    · exact .refl s
  · exact .refl s

theorem State.after_tellSegue (tag : Nat) : s.After (s.tellSegue tag) := by
  unfold State.tellSegue
  split
  · exact .refl s
  · exact s.after_emit _

theorem State.after_fadeAtMark (d : DeckNo) (len : Nat) (law : Law) (c : Cause) (e : Nat) :
    s.After (s.fadeAtMark d len law c e) :=
  .andThen (State.after_requestFade _ _ _ _ _) (.ite (s.after_segueMarkAt d) (.refl s))

theorem State.after_fadeMarkAt (d : DeckNo) : s.After (s.fadeMarkAt d) := by
  unfold State.fadeMarkAt
  dsimp only
  split
  · split
    · exact .refl s
    · split
      · exact .refl s
      · exact .andThen (State.after_fadeAtMark _ _ _ _ _) (s.after_modDeck d _ fun _ => le_rfl)
  · exact .refl s

theorem State.after_truncBeginAt (d : DeckNo) : s.After (s.truncBeginAt d) := by
  unfold State.truncBeginAt
  dsimp only
  split
  · split
    · exact .andThen (State.after_fadeAtMark _ _ _ _ _) (s.after_modDeck d _ fun _ => le_rfl)
    · exact .refl s
  · exact .refl s

theorem State.after_itemEndAt (d : DeckNo) : s.After (s.itemEndAt d) := by
  unfold State.itemEndAt
  dsimp only
  split
  · split
    · exact .refl s
    · exact s.after_endItem _ _
  · exact .refl s

theorem State.after_fadeInEndAt (d : DeckNo) : s.After (s.fadeInEndAt d) := by
  unfold State.fadeInEndAt
  split
  · exact s.after_modDeck d _ fun _ => le_rfl
  · exact .refl s

theorem State.after_blockEnteredAt (d : DeckNo) : s.After (s.blockEnteredAt d) := by
  unfold State.blockEnteredAt
  split
  · exact s.after_modDeck d _ fun _ => le_rfl
  · exact .refl s

theorem State.after_skipSilentAt (d : DeckNo) : s.After (s.skipSilentAt d) := by
  unfold State.skipSilentAt
  split
  · split
    · exact .refl s
    · exact .andThen (State.after_setTimer _ _) (.andThen (State.after_requestFade _ _ _ _ _) (s.after_takeSegue _ _))
  · exact .refl s

theorem State.after_startDeck (r : CueRecord) (d : DeckNo) (it : Item) (since : Option Nat) (c l : Bool) :
    s.After (s.startDeck r d it since c l) := by
  unfold State.startDeck
  dsimp only
  refine .andThen (State.after_emit _) (.andThen (State.after_handLive _ rfl) (.andThen (State.after_activateDuck _ _ _)
    (.andThen (State.after_applyTruncation _) (.andThen (State.after_zeroWords _) (.andThen (State.after_setTimer _ _)
    (.andThen (State.after_modDeck d _ fun _ => Nat.zero_le _) (.andThen (State.after_cancelRecordExpiries _)
    (State.after_modRecord _ _ fun _ => rfl))))))))

theorem State.after_judgePrimed (d : DeckNo) : s.After (s.judgePrimed d) := by
  unfold State.judgePrimed
  dsimp only
  split
  · exact .andThen (State.after_emit _) (s.after_modDeck d _ fun _ => le_rfl)
  · exact .refl s

theorem State.after_storeEndAt (d : DeckNo) : s.After (s.storeEndAt d) := by
  unfold State.storeEndAt
  split
  · exact .refl s
  · exact .refl s
  · exact .andThen (State.after_takeSegue _ _) (.andThen (State.after_requestFade _ _ _ _ _)
      (.ite (s.after_takeSegue _ _) (.refl s)))

theorem State.after_storeFault (g : Nat) : s.After (s.storeFault g) :=
  .ite (.of_eq rfl rfl rfl rfl rfl) (.refl s)

theorem State.after_releaseStoreFaults (p : Nat → Bool) : s.After (s.releaseStoreFaults p) :=
  .andThen (State.After.foldl _ (fun s g => s.after_handLive _ rfl) _ _)
    (State.After.of_eq (s := s) (t := { s with monitor := { s.monitor with storeFaults := s.monitor.storeFaults.filter fun f => !p f.period } })
      rfl rfl rfl rfl rfl)

theorem State.after_handBlock (d : DeckNo) (i : Fin 16) (b : Nat) (a : Option (List Byte)) : s.After (s.handBlock d i b a) := by
  unfold State.handBlock
  dsimp only
  split
  · exact .andThen (State.after_judgePrimed d) (s.after_setDeck d _ le_rfl)
  · refine .andThen (State.after_judgePrimed d) ?_
    have h (u : State) (hu : s.After u) : s.After (if (decide (min 4 ((s.deck d).run + 1) = 4) && !(s.deck d).storeEnd &&
        (s.deck d).sounding) = true then u.storeEndAt d else u) := .ite (.andThen (State.after_storeEndAt d) hu) hu
    refine h _ (.ite (s.after_setDeck d _ le_rfl) ?_)
    split
    · exact s.after_setDeck d _ le_rfl
    · exact .andThen (State.after_storeFault _) (s.after_setDeck d _ le_rfl)

/-! ### Running order -/

theorem State.after_markTriggered (tag : Nat) : s.After (s.markTriggered tag) := s.after_modRecord _ _ fun _ => rfl

theorem State.after_markShadow (tag : Nat) (t : Option Nat) : s.After (s.markShadow tag t) := s.after_modRecord _ _ fun _ => rfl

theorem State.after_setAsideMark (r : CueRecord) : s.After (s.setAsideMark r) :=
  .ite (.refl s) (s.after_modRecord _ _ fun _ => rfl)

theorem State.after_triggerLater (tag : Nat) : s.After (s.triggerLater tag) := by
  unfold State.triggerLater
  split
  · exact .refl s
  · refine .ite (.refl s) (.ite (s.after_setAsideMark _) ?_)
    split
    · exact s.after_markTriggered _
    · exact s.after_markTriggered _
    · exact s.after_emit _
    · exact s.after_emit _
    · exact .refl s
    · exact .refl s

theorem State.after_rejudge (tag : Nat) : s.After (s.rejudge tag) := by
  unfold State.rejudge
  split
  · exact .refl s
  · exact .ite (s.after_triggerLater _) (.refl s)

theorem State.after_schedule (tag x : Nat) : s.After (s.schedule tag x) :=
  .andThen (State.after_setAir _ _) (s.after_modRecord _ _ fun _ => rfl)

theorem State.after_judgeNew (tag : Nat) : s.After (s.judgeNew tag) := by
  unfold State.judgeNew
  split
  · exact .refl s
  · split
    · split
      · split
        · exact s.after_triggerLater _
        · exact .refl s
      · exact .refl s
    · split
      · exact .refl s
      · split
        · exact s.after_triggerLater _
        · split
          · split
            · exact .refl s
            · split
              · exact .refl s
              · exact s.after_schedule _ _
          · exact .refl s
    all_goals exact .refl s

theorem State.after_bindRecord (r : CueRecord) (sn : Snapshot) (d : DeckNo) : s.After (s.bindRecord r sn d) :=
  .andThen (State.after_emit _) (.andThen (State.after_modRecord _ _ fun _ => rfl)
    (State.after_modDeck d _ fun _ => Nat.zero_le _))

theorem State.after_reclaim (r : CueRecord) (d : DeckNo) : s.After (s.reclaim r d) :=
  .andThen (State.after_modRecord _ _ fun _ => rfl) (s.after_idleDeck d)

theorem State.after_bindOnce (gone : List Nat) {t : State} (h : s.bindOnce gone = some t) : s.After t := by
  unfold State.bindOnce at h
  split at h
  · cases h
  · split at h
    · cases h
    · split at h
      · cases h; exact s.after_bindRecord _ _ _
      · split at h
        · cases h
        · split at h
          · cases h
          · split at h
            · cases h; exact .andThen (State.after_bindRecord _ _ _) (s.after_reclaim _ _)
            · cases h

theorem State.after_bind : s.After s.bind := by
  unfold State.bind
  split
  · exact .refl s
  · rename_i h; exact .andThen (State.after_emit _) (s.after_bindOnce _ h)

theorem State.after_bindHeld (gone : List Nat) (n : Nat) (s : State) : s.After (s.bindHeld gone n) := by
  induction n generalizing s with
  | zero => exact .refl s
  | succ n ih =>
    simp only [State.bindHeld]
    split
    · exact .refl s
    · rename_i h; exact .andThen (ih _) (s.after_bindOnce _ h)

theorem State.after_leaveOne (c : Cause) (b : Bool) (told : State → CueRecord → List Nat → State)
    (h : ∀ (s : State) (r : CueRecord) (l : List Nat), s.After (told s r l)) (tag : Nat) (rest : List Nat) :
    s.After (s.leaveOne c b told tag rest) := by
  unfold State.leaveOne
  split
  · exact .refl s
  · rename_i r _
    have k := State.After.andThen (h _ r rest) (s.after_removeRecord tag c b)
    refine .andThen (State.after_bindHeld _ _ _) ?_
    split
    · exact k
    · exact .andThen (State.after_rejudge _) k

/-- Records that leave together stay within what `State.After` allows when what the break fitter is told does. -/
theorem State.after_leaveAll (c : Cause) (b : Bool) (told : State → CueRecord → List Nat → State)
    (h : ∀ (s : State) (r : CueRecord) (l : List Nat), s.After (told s r l)) (gone l : List Nat) (s : State) :
    s.After (s.leaveAll c b told gone l) := by
  induction l generalizing s with
  | nil => exact .refl s
  | cons t l ih => exact .andThen (ih _) (s.after_leaveOne c b told h t _)

theorem tellNoFit_after (s : State) (r : CueRecord) (l : List Nat) : s.After (tellNoFit s r l) := .refl s

theorem State.after_recordFetched (tag : Nat) (o : FetchOutcome) : s.After (s.recordFetched tag o) := by
  unfold State.recordFetched
  split
  · exact .refl s
  · split
    · exact s.after_depart _ _
    · exact .andThen (State.after_emit _) (s.after_modRecord _ _ fun _ => rfl)

/-! ### Break fitter -/

/-- A record put after another stands beside the records that were there. -/
theorem insertAfter_perm (t : Nat) (r : CueRecord) (l : List CueRecord) : (insertAfter t r l).Perm (r :: l) := by
  induction l with
  | nil => exact List.Perm.refl _
  | cons x xs ih =>
    simp only [insertAfter]
    split
    · exact List.Perm.swap _ _ _
    · exact (ih.cons x).trans (List.Perm.swap _ _ _)

/-- A record put before another stands beside the records that were there. -/
theorem insertBefore_perm (t : Nat) (r : CueRecord) (l : List CueRecord) : (insertBefore t r l).Perm (r :: l) := by
  induction l with
  | nil => exact List.Perm.refl _
  | cons x xs ih =>
    simp only [insertBefore]
    split
    · exact List.Perm.refl _
    · exact (ih.cons x).trans (List.Perm.swap _ _ _)

theorem State.find_none_iff (s : State) (tag : Nat) : s.find tag = none ↔ tag ∉ s.tags := by
  simp [State.find, State.tags]

/-- A new record beside those of the running order keeps its limits when there is room and its tag is new (R34, R36). -/
theorem State.OrderOk.insert {l : List CueRecord} {r : CueRecord} (h : s.OrderOk) (hl : s.records.length < 48)
    (ht : s.find r.tag = none) (hp : l.Perm (r :: s.records)) : ({ s with records := l } : State).OrderOk := by
  refine ⟨?_, ?_⟩
  · have := hp.length_eq
    simp only [List.length_cons] at this
    simp only; omega
  · have := (hp.map CueRecord.tag).nodup_iff
    refine this.mpr ?_
    simp only [List.map_cons, List.nodup_cons]
    exact ⟨(s.find_none_iff _).mp ht, h.2⟩

theorem State.after_placeFill (e : EntryNo) (t : Nat) (gone : List Nat) : s.After (s.placeFill e t gone) := by
  unfold State.placeFill
  dsimp only
  split
  · exact .refl s
  · rename_i sn _
    split
    · exact s.after_modEntry _ _
    · rename_i hn
      simp only [not_or, not_le, Bool.not_eq_true, Option.isSome_eq_false_iff, Option.isNone_iff_eq_none] at hn
      refine .andThen (State.after_bindHeld _ _ _) (.andThen (State.after_judgeNew _) (.andThen (State.after_modEntry _ _) ?_))
      have hp := insertAfter_perm t (fillRecordOf (s.entry e) sn) s.records
      refine ⟨rfl, List.prefix_rfl, id, id, fun h => h.insert hn.1 hn.2 hp, fun x hx => ?_, fun _ => le_rfl, fun _ => le_rfl⟩
      have := (hp.map CueRecord.tag).mem_iff.mp hx
      simp only [List.map_cons, List.mem_cons] at this
      rcases this with rfl | h
      · right; simp only [fillRecordOf, fillTag]; omega
      · exact .inl h

theorem State.after_judgeFillFade (e : EntryNo) : s.After (s.judgeFillFade e) := by
  unfold State.judgeFillFade
  dsimp only
  split
  · exact .refl s
  · split
    · split
      · split
        · exact .andThen (State.after_modEntry _ _) (s.after_cancelAir _)
        · exact .andThen (State.after_setAir _ _) (s.after_modEntry _ _)
      · exact .andThen (State.after_modEntry _ _) (s.after_cancelAir _)
    · exact .refl s

theorem State.after_fillFadeFired (e : EntryNo) (n : Nat) : s.After (s.fillFadeFired e n) := by
  unfold State.fillFadeFired
  dsimp only
  split
  · split
    · exact s.after_modEntry _ _
    · exact .andThen (State.after_requestFade _ _ _ _ _) (s.after_modEntry _ _)
  · exact .refl s

theorem State.after_setTruncation (t : Nat × Option Nat) : s.After (s.setTruncation t) := by
  unfold State.setTruncation
  split
  · exact .refl s
  · split
    · exact .refl s
    · dsimp only
      split
      · split
        · exact s.after_modRecord _ _ fun _ => rfl
        · exact .andThen (State.after_emit _) (.andThen (State.after_applyTruncation _) (s.after_modRecord _ _ fun _ => rfl))
      · exact s.after_modRecord _ _ fun _ => rfl

theorem State.after_fitWithout (e : EntryNo) (gone : List Nat) : s.After (s.fitWithout e gone) := by
  unfold State.fitWithout
  refine .ite ?_ (.refl s)
  dsimp only
  have h (u : State) (hu : s.After u) (c : Bool) (q : Option Prior) : s.After (match c, q with
      | true, some q => u.placeFill e q.tag gone
      | _, _ => u) := by
    split
    · exact .andThen (State.after_placeFill _ _ _) hu
    · exact hu
  exact h _ (.andThen (State.After.foldl State.setTruncation (fun s t => s.after_setTruncation t) _ _)
    (.andThen (State.after_leaveAll _ _ _ tellNoFit_after _ _ _) (.andThen (State.after_modEntry _ _) (s.after_judgeFillFade e)))) _ _

theorem State.after_fit (e : EntryNo) : s.After (s.fit e) := s.after_fitWithout e []

theorem State.after_memberJoined (tag : Nat) : s.After (s.memberJoined tag) := by
  unfold State.memberJoined
  split
  · exact .refl s
  · split
    · exact .refl s
    · split
      · exact s.after_emit _
      · exact s.after_depart _ _
      · exact .refl s
      · exact .refl s

theorem State.after_memberStarted (tag : Nat) : s.After (s.memberStarted tag) := by
  unfold State.memberStarted
  split
  · exact .refl s
  · split
    · exact .refl s
    · split
      · exact s.after_emit _
      · split
        · exact .andThen (State.after_emit _) (s.after_modEntry _ _)
        · exact .refl s
      · exact .refl s
      · exact .refl s

theorem State.after_memberLeft (id : Nat) (g : Group) (fill : Bool) (gone : List Nat) : s.After (s.memberLeft id g fill gone) := by
  unfold State.memberLeft
  split
  · exact .refl s
  · exact .ite (s.after_fitWithout _ _) (.refl s)

theorem State.tellLeft_after (s : State) (r : CueRecord) (l : List Nat) : s.After (s.tellLeft r l) := by
  unfold State.tellLeft
  split
  · exact .refl s
  · exact s.after_memberLeft _ _ _ _

theorem State.after_memberReady (tag : Nat) : s.After (s.memberReady tag) := by
  unfold State.memberReady
  split
  · exact .refl s
  · split
    · exact .refl s
    · split
      · exact s.after_emit _
      · exact .refl s

theorem State.after_lookForMembers (e : EntryNo) : s.After (s.lookForMembers e) := by
  unfold State.lookForMembers
  dsimp only
  split
  · exact .andThen (State.after_emit _) (s.after_modEntry _ _)
  · exact .refl s

theorem State.after_rejoinFired (e : EntryNo) : s.After (s.rejoinFired e) := by
  unfold State.rejoinFired
  dsimp only
  refine .ite ?_ (.refl s)
  refine .andThen (State.after_setAir _ _) (.andThen (State.after_modEntry _ _) (.andThen (State.after_cancelAir _)
    (.andThen (State.after_withdrawFetch _) (.andThen (State.after_leaveAll _ _ _ tellNoFit_after _ _ _)
    (State.After.foldl _ (fun s r => ?_) _ s)))))
  split
  · exact .refl s
  · exact s.after_requestFade _ _ _ _ _

theorem State.after_idHoldFired (e : EntryNo) : s.After (s.idHoldFired e) := s.after_modEntry _ _

theorem State.after_fillFetched (e : EntryNo) (b : Bool) (o : FetchOutcome) : s.After (s.fillFetched e b o) := by
  unfold State.fillFetched
  dsimp only
  split
  · split
    · exact s.after_askFillFetch _
    · split
      · exact s.after_modEntry _ _
      · exact .andThen (State.after_emit _) (s.after_modEntry _ _)
  · exact .refl s

/-! ### Triggers, DROP, GO, CLEAR -/

theorem State.after_displace (r : CueRecord) : s.After (s.displace r) := by
  unfold State.displace
  refine State.After.foldl _ (fun s x => ?_) _ _
  split
  · exact .refl s
  · exact s.after_requestFade _ _ _ _ _

theorem State.after_overtake (r : CueRecord) : s.After (s.overtake r) :=
  State.after_leaveAll _ _ _ State.tellLeft_after _ _ s

theorem State.after_displaceAndOvertake (r : CueRecord) : s.After (s.displaceAndOvertake r) :=
  .andThen (State.after_overtake _) (.andThen (State.after_displace r) (s.after_modRecord _ _ fun _ => rfl))

theorem State.after_startRecord (tag : Nat) (since : Option Nat) (c l : Bool) : s.After (s.startRecord tag since c l) := by
  unfold State.startRecord
  split
  · exact .refl s
  · split
    · exact .refl s
    · split
      · exact .andThen (State.after_emit _) (s.after_displaceAndOvertake _)
      · split
        · exact s.after_markShadow _ _
        · split
          · exact .refl s
          · exact s.after_startDeck _ _ _ _ _ _

theorem State.after_answerTrigger (tag : Nat) : s.After (s.answerTrigger tag) := by
  unfold State.answerTrigger
  split
  · exact .refl s
  · split
    · exact s.after_modRecord _ _ fun _ => rfl
    · exact s.after_modRecord _ _ fun _ => rfl
    · exact s.after_startRecord _ _ _ _
    · exact s.after_startRecord _ _ _ _
    · exact .refl s
    · exact .refl s

theorem State.after_markWaiting (r : CueRecord) : s.After (s.markWaiting r) := by
  unfold State.markWaiting
  split
  · exact s.after_markTriggered _
  · exact s.after_markTriggered _
  all_goals exact .refl s

theorem State.after_trigger (tag : Nat) : s.After (s.trigger tag) := by
  unfold State.trigger
  split
  · exact .refl s
  · split
    · exact .refl s
    · split
      · exact s.after_setAsideMark _
      · split
        · exact .andThen (State.after_emit _) (.andThen (State.after_displaceAndOvertake _) (s.after_markWaiting _))
        · exact s.after_answerTrigger _

theorem State.after_recordArmed (tag : Nat) : s.After (s.recordArmed tag) := by
  unfold State.recordArmed
  split
  · exact .refl s
  · split
    · dsimp only
      split
      · exact .andThen (State.after_trigger _) (s.after_modRecord _ _ fun _ => rfl)
      · exact s.after_modRecord _ _ fun _ => rfl
    · exact .refl s

theorem State.after_followSegue (tag : Nat) : s.After (s.followSegue tag) := by
  unfold State.followSegue
  split
  · exact .refl s
  · split
    · exact s.after_trigger _
    · split
      · exact s.after_trigger _
      · exact .refl s
    all_goals exact .refl s

theorem State.after_followEnd (tag : Nat) : s.After (s.followEnd tag) := by
  unfold State.followEnd
  split
  · exact .refl s
  · split
    · exact s.after_trigger _
    · exact s.after_trigger _
    · split
      · exact s.after_trigger _
      · exact .refl s
    all_goals exact .refl s

theorem State.after_takeDrop (tag : Nat) : s.After (s.takeDrop tag) := by
  unfold State.takeDrop
  split
  · exact .refl s
  · split
    · exact s.after_depart _ _
    · exact s.after_depart _ _
    · exact s.after_depart _ _
    · exact s.after_depart _ _
    · split
      · exact .refl s
      · split
        · exact s.after_requestFade _ _ _ _ _
        · exact .refl s
    · exact .refl s

theorem State.after_takeGo (g : Nat) : s.After (s.takeGo g) := by
  unfold State.takeGo
  split
  · split
    · exact .refl s
    · exact s.after_trigger _
  · exact .refl s

theorem State.after_clearFade (d : DeckNo) (law : Law) : s.After (s.clearFade d law) :=
  .ite (.refl s) (s.after_requestFade _ _ _ _ _)

theorem State.after_clearRecord (tag : Nat) : s.After (s.clearRecord tag) := by
  unfold State.clearRecord
  split
  · exact .refl s
  · split
    · exact s.after_removeRecord _ _ _
    · split
      · dsimp only
        split
        · exact s.after_modRecord _ _ fun _ => rfl
        · exact .andThen (State.after_clearFade _ _) (s.after_modRecord _ _ fun _ => rfl)
      · exact .refl s

theorem State.after_clearRecords : s.After s.clearRecords :=
  State.After.foldl State.clearRecord (fun s t => s.after_clearRecord t) _ s

/-! ### Reads -/

theorem State.after_endFetch (o : FetchInProgress → FetchOutcome) : s.After (s.endFetch o) := by
  unfold State.endFetch
  split
  · exact .refl s
  · exact .andThen (State.after_emit _) (s.after_modReader _)

theorem State.after_endRead (r : StoreRead) (d : Option (List Byte)) : s.After (s.endRead r d) := by
  unfold State.endRead
  dsimp only
  have h := State.After.andThen State.after_cancelTimeout (s.after_modReader fun x => { x with flight := none })
  refine .ite h (.andThen ?_ h)
  split
  · unfold State.readGood
    split
    · unfold State.directoryRead
      split
      · exact .refl _
      · dsimp only
        split
        · exact State.after_endFetch _
        · exact State.after_modReader _
    · exact State.after_endFetch _
    · exact State.after_handBlock _ _ _ _
  · refine .ite ?_ (State.after_issue _ _ _ _)
    unfold State.readFailed
    split
    · exact State.after_endFetch _
    · exact State.after_endFetch _
    · exact State.after_handBlock _ _ _ _

theorem State.after_completionAt (n : Nat) (d : Option (List Byte)) : s.After (s.completionAt n d) := by
  unfold State.completionAt
  split
  · exact .refl s
  · split
    · exact s.after_endRead _ _
    · exact .refl s

theorem State.after_readTimeoutAt : s.After s.readTimeoutAt := by
  unfold State.readTimeoutAt
  split
  · exact s.after_cancelTimeout
  · exact s.after_endRead _ _

theorem State.after_fetchEnded (f : FetchInProgress) (o : FetchOutcome) : s.After (s.fetchEnded f o) := by
  unfold State.fetchEnded
  split
  · exact s.after_recordFetched _ _
  · exact s.after_fillFetched _ _ _

/-! ### Peer coupling, pair and expiries -/

theorem State.after_startFollowed (r : CueRecord) (t : Option Nat) (c : Bool) : s.After (s.startFollowed r t c) := by
  unfold State.startFollowed
  split
  · exact .andThen (State.after_emit _) (s.after_displaceAndOvertake _)
  · exact s.after_startRecord _ _ _ _

theorem State.after_followStart (tag : Nat) (t : Option Nat) : s.After (s.followStart tag t) := by
  unfold State.followStart
  split
  · exact .refl s
  · split
    · exact .refl s
    · split
      · exact s.after_startFollowed _ _ _
      · exact s.after_startFollowed _ _ _
      · exact s.after_markShadow _ _
      · exact s.after_markShadow _ _
      · exact .refl s
      · exact .refl s

theorem State.after_followPartnerEnd (tag : Nat) : s.After (s.followPartnerEnd tag) := by
  unfold State.followPartnerEnd
  split
  · exact .refl s
  · split
    · exact .refl s
    · split
      · exact s.after_depart _ _
      · split
        · exact .refl s
        · split
          · exact .refl s
          · split
            · exact s.after_endItem _ _
            · exact .refl s

theorem State.after_coupleStart (q : Station) (tag : Nat) (x : Option Nat) : s.After (s.coupleStart q tag x) := by
  unfold State.coupleStart
  split
  · split
    · exact .refl s
    · exact State.After.foldl _ (fun s t => s.after_schedule t _) _ _
  · exact .refl s

theorem State.after_coupleMark (q : Station) (tag : Nat) : s.After (s.coupleMark q tag) := s.after_emit _

theorem State.after_coupleLost (q : Station) : s.After (s.coupleLost q) := s.after_emit _

theorem State.after_peerTrigger (tag : Nat) : s.After (s.peerTrigger tag) := by
  unfold State.peerTrigger
  split
  · exact .refl s
  · split
    · exact .andThen (State.after_trigger _) (.andThen (State.after_cancelAir _) (s.after_modRecord _ _ fun _ => rfl))
    · exact .refl s

theorem State.after_airFired (h : AirHandle) (n : Nat) : s.After (s.airFired h n) := by
  unfold State.airFired
  split
  · unfold State.startTimeFired
    split
    · exact .refl s
    · split
      · exact s.after_trigger _
      · split
        · exact s.after_trigger _
        · exact .refl s
      all_goals exact .refl s
  · unfold State.latestStartFired
    split
    · exact .refl s
    · exact s.after_trigger _
  · unfold State.scheduledStartFired
    split
    · exact .refl s
    · exact .andThen (State.after_trigger _) (s.after_modRecord _ _ fun _ => rfl)
  · exact s.after_rejoinFired _
  · exact s.after_fillFadeFired _ _
  · exact s.after_idHoldFired _

theorem State.after_deliver (x : AirExpiry) : s.After (s.deliver x) := .andThen (State.after_airFired _ _) (s.after_cancelAir _)

theorem State.after_fireDue : s.After s.fireDue :=
  State.After.foldl State.fireAir (fun s _ => .andThen (State.after_emit _) (s.after_cancelAir _)) _ s

/-! ### A command's reactions -/

/-- Every reaction stays within what `State.After` allows. -/
theorem State.after_perform (t : Task) : s.After (s.perform t) := by
  cases t with
  | fired h n => exact s.after_airFired h n
  | fireDue => exact s.after_fireDue
  | trigger tag => exact s.after_trigger tag
  | answer tag => exact s.after_answerTrigger tag
  | start tag since c l => exact s.after_startRecord tag since c l
  | armed tag => exact s.after_recordArmed tag
  | judgeNew tag => exact s.after_judgeNew tag
  | rejudge tag => exact s.after_rejudge tag
  | followSegue tag => exact s.after_followSegue tag
  | followEnd tag => exact s.after_followEnd tag
  | bind => exact s.after_bind
  | joined tag => exact s.after_memberJoined tag
  | memberStarted tag => exact s.after_memberStarted tag
  | memberLeft id g fill => exact s.after_memberLeft id g fill []
  | deckIdle d => exact s.after_deckIdleAt d
  | memberReady tag => exact s.after_memberReady tag
  | lookForMembers e => exact s.after_lookForMembers e
  | fit e => exact s.after_fit e
  | fetchEnded f o => exact s.after_fetchEnded f o
  | storeEnd d => exact s.after_storeEndAt d
  | fadeMark d => exact s.after_fadeMarkAt d
  | truncBegin d => exact s.after_truncBeginAt d
  | segueMark d => exact s.after_segueMarkAt d
  | seguePast tag => exact s.after_tellSegue tag
  | itemEnd d => exact s.after_itemEndAt d
  | peerStart q tag x => exact s.after_coupleStart q tag x
  | peerMark q tag => exact s.after_coupleMark q tag
  | peerTrigger tag => exact s.after_peerTrigger tag
  | partnerStart tag t => exact s.after_followStart tag t
  | partnerEnd tag => exact s.after_followPartnerEnd tag
  | grant => exact s.after_grant
  | boundary => exact .refl s

theorem State.after_run (n : Nat) (s : State) : s.After (s.run n) := by
  induction n generalizing s with
  | zero => exact .refl s
  | succ n ih =>
    simp only [State.run]
    split
    · exact .refl s
    · exact .andThen (ih _) (.andThen (State.after_work _) (.andThen (State.after_perform _) (s.after_work _)))

theorem State.after_settleWork : s.After s.settleWork := s.after_run _

/-- What is left to do at the end of a command stays within what `State.After` allows. -/
theorem State.after_finish : s.After s.finish := .andThen State.after_settleWork (s.after_emit _)

/-- With no grant to be made, the grant changes nothing. -/
theorem State.grant_eq_self (h : s.NoGrant) : s.grant = s := by
  unfold State.grant
  rcases h with h | ⟨h1, h2, h3⟩
  · rw [if_pos h]
  · split
    · rfl
    · rw [h1]
      dsimp only
      rw [h2, if_neg (by decide), h3]

/-- A state at rest is left as it is. -/
theorem State.finish_atRest (h : s.AtRest) : s.finish = s := by
  obtain ⟨hw, hg⟩ := h
  have hs : ({ s with work := [] } : State) = s := by cases s; simp only at hw; subst hw; rfl
  have h1 : (s.emit [.grant]).work = [.grant] := by simp [hw]
  have h2 : ({ s.emit [.grant] with work := [] ++ [Task.boundary] } : State).perform .grant = { s with work := [.boundary] } :=
    State.grant_eq_self (s := { s with work := [.boundary] }) hg
  show State.run (4095 + 1) (s.emit [.grant]) = s
  rw [State.run, h1]
  dsimp only
  rw [h2]
  exact hs

end Sys2Proof.Machine
end

