-- ==== Sys2Proof/Laws/Commands.lean ====
section
/-! SUPPORT. What each command of a running engine answers, and what hearing and taking a notice come to. -/

namespace Sys2Proof.Machine

set_option Elab.async false

variable {s : State}

theorem whenRunning_running (h : s.phase = .running) (f : State → State) : whenRunning s f = .next (f s) := by
  simp [whenRunning, h]

/-! ### Frames heard and notices taken -/

theorem State.Hears.heard {k : Header} (h : s.Hears k) (act : State → State) : s.heard k act = act (s.onHearing k) := by
  rcases h.2.1 with k | k <;> simp [State.heard, State.takeFrame, k, h.2.2, State.onHearing]

/-- A notice that an engine hears and takes acts on the state in which its sender is PRESENT. -/
theorem State.Takes.heard {k : Header} (h : s.Takes k) (act : State → State) :
    (s.heard k fun s => s.addressed k act) = act (s.onHearing k) := by
  rw [h.1.heard]
  have h2 : (s.onHearing k).forSelf k = true ∨ (s.onHearing k).forPartner k = true := h.2.1
  have h3 : (s.onHearing k).masked k = true := h.2.2
  simp [State.addressed, h2, h3]

theorem State.Hears.running {k : Header} (h : s.Hears k) : s.phase = .running := h.1

theorem State.Takes.running {k : Header} (h : s.Takes k) : s.phase = .running := h.1.1

theorem State.AtRest.onHearing (h : s.AtRest) (k : Header) : (s.onHearing k).AtRest := h

/-! ### What comes first, where there is nothing to come first -/

/-- No error flag is being driven: none ends. -/
theorem State.endFlag_eq_self (h : s.bus.line ≠ .flagging) : s.endFlag = s := by
  unfold State.endFlag
  split <;> first | rfl | exact absurd (by assumption) h

/-- No STORE FAULT waits: none is handed. -/
theorem State.releaseStoreFaults_eq_self (h : s.monitor.storeFaults = []) (p : Nat → Bool) : s.releaseStoreFaults p = s := by
  unfold State.releaseStoreFaults
  simp only [h, List.filter_nil, List.foldl_nil]
  rw [← h]

theorem State.closeFaults_eq_self (h : s.monitor.storeFaults = []) : s.closeFaults = s := by
  unfold State.closeFaults
  split
  · rfl
  · exact State.releaseStoreFaults_eq_self h _

/-- Outside the first sample period of a control period, with no error flag and no STORE FAULT, a sample period closes as it
stands. -/
theorem State.closePeriod_eq_self (h : s.controlIndex ≠ 0) (k : s.bus.line ≠ .flagging) (m : s.monitor.storeFaults = []) :
    s.closePeriod = s := by
  have h1 : s.settleControl = s := by unfold State.settleControl; rw [if_neg fun x => h x.1]
  unfold State.closePeriod
  rw [h1, State.endFlag_eq_self k, State.closeFaults_eq_self m]

/-- No window awaits its judgement: none is judged. -/
theorem State.monitorWindowAt_eq_self (h : s.monitor.full = false) : s.monitorWindowAt = s := by
  unfold State.monitorWindowAt
  rw [h, if_neg (by decide)]

/-- No run of a slew is complete: the remainder stays. -/
theorem State.slewRunAt_eq_self (h : s.clock.runDone = false) : s.slewRunAt = s := by
  unfold State.slewRunAt
  rw [h, if_neg (by decide)]

/-- An air-time expiry that does not fire delivers nothing. -/
theorem State.airEvent_eq_self {h : AirHandle} (k : s.delivered h = []) : s.airEvent h = s := by
  unfold State.airEvent
  rw [k]

/-- With no rejoin guard due, none acts before a STATUS. -/
theorem State.guardsFirst_eq_self (h : ∀ e : EntryNo, s.delivered (.rejoin e) = []) : s.guardsFirst = s := by
  have k (l : List EntryNo) : l.foldl (fun s e => s.airEvent (.rejoin e)) s = s := by
    induction l with
    | nil => rfl
    | cons e l ih => rw [List.foldl_cons, State.airEvent_eq_self (h e), ih]
  exact k allEntries

/-- With no expiry of the pair controller due, none is taken before a frame begins. -/
theorem State.pairFirst_eq_self (h : s.intervalDue .listen = false) (k : s.intervalDue .absentWatch = false) : s.pairFirst = s := by
  unfold State.pairFirst
  simp [h, k]

/-! ### Which decks a DROP reaches (R54, R71) -/

theorem Deck.takesDrop_of_playing {x : Deck} (h : x.state = .playing) : x.takesDrop = true := by simp [Deck.takesDrop, h]

/-- On a FADING deck a DROP has no effect in any fade but the store-end fade. -/
theorem Deck.takesDrop_of_other_fade {x : Deck} (h : x.state = .fading) (k : ∀ f, x.fadeOut = some f → f.cause ≠ ⟨.faded, .store⟩) :
    x.takesDrop = false := by
  cases hf : x.fadeOut with
  | none => simp [Deck.takesDrop, Deck.inStoreEnd, h, hf]
  | some f => simp [Deck.takesDrop, Deck.inStoreEnd, h, hf, storeEndCause, k f hf]

/-- In the store-end fade the free value decides. -/
theorem Deck.takesDrop_of_storeEnd {x : Deck} {f : FadeOut} (h : x.state = .fading) (k : x.fadeOut = some f)
    (c : f.cause = ⟨.faded, .store⟩) : x.takesDrop = Config.storeEndTakesDrop := by
  simp [Deck.takesDrop, Deck.inStoreEnd, h, k, c, storeEndCause]

/-! ### The commands of a running engine -/

theorem exec_samplePeriod (h : s.phase = .running) :
    exec .samplePeriod s = .next ((s.takeDue periodFuel).closePeriod.tick) := by
  simp only [exec, execSamplePeriod, whenRunning_running h]

theorem exec_controlPeriod (h : s.phase = .running) :
    exec .controlPeriod s = .next (s.controlPeriodAt) := by
  simp only [exec, execControlPeriod, whenRunning_running h]

theorem exec_monitorWindow (h : s.phase = .running) :
    exec .monitorWindow s = .next (s.monitorWindowAt) := by
  simp only [exec, execMonitorWindow, whenRunning_running h]

theorem exec_timePulse (h : s.phase = .running) :
    exec .timePulse s = .next (s.timePulseAt) := by
  simp only [exec, execTimePulse, whenRunning_running h]

theorem exec_timeLabel (h : s.phase = .running) (d : BitVec 16) (n : Nat) :
    exec (.timeLabel d n) s = .next ((s.timeLabelAt d n).finish) := by
  simp only [exec, execTimeLabel, whenRunning_running h]

theorem exec_labelWindowExpiry (h : s.phase = .running) :
    exec .labelWindowExpiry s = .next (if s.intervalDue .labelWindow then s.windowExpired else s) := by
  simp only [exec, execLabelWindowExpiry, whenRunning_running h]

theorem exec_labelGap (h : s.phase = .running) :
    exec .labelGap s = .next (if s.intervalDue .labelGap then s.labelGapAt else s) := by
  simp only [exec, execLabelGap, whenRunning_running h]

theorem exec_slewRun (h : s.phase = .running) :
    exec .slewRun s = .next (s.slewRunAt) := by
  simp only [exec, execSlewRun, whenRunning_running h]

theorem exec_storeCompletion (h : s.phase = .running) (n : BitVec 8) (g : Bool) (d : List Byte) :
    exec (.storeCompletion n g d) s = .next (if s.awaits n.toNat then (s.completionAt n.toNat (if g then some d else none)).finish else s) := by
  simp only [exec, execStoreCompletion, whenRunning_running h]

theorem exec_readTimeout (h : s.phase = .running) :
    exec .readTimeout s = .next (if s.intervalDue .readTimeout then s.readTimeoutAt.finish else s) := by
  simp only [exec, execReadTimeout, whenRunning_running h]

theorem exec_load (h : s.phase = .running) (k : Header) (f : LoadFields) :
    exec (.load k f) s = .next ((s.hearLoad k f).finish) := by
  simp only [exec, execLoad, whenRunning_running h]

theorem exec_drop (h : s.phase = .running) (k : Header) (t : BitVec 16) :
    exec (.drop k t) s = .next ((s.hearDrop k t.toNat).finish) := by
  simp only [exec, execDrop, whenRunning_running h]

theorem exec_clear (h : s.phase = .running) (k : Header) :
    exec (.clear k) s = .next ((s.hearClear k).finish) := by
  simp only [exec, execClear, whenRunning_running h]

theorem exec_go (h : s.phase = .running) (k : Header) (g : Byte) :
    exec (.go k g) s = .next ((s.hearGo k g.toNat).finish) := by
  simp only [exec, execGo, whenRunning_running h]

theorem exec_level (h : s.phase = .running) (k : Header) (f : LevelFields) :
    exec (.level k f) s = .next (s.hearLevel k f) := by
  simp only [exec, execLevel, whenRunning_running h]

theorem exec_declareBreak (h : s.phase = .running) (k : Header) (f : BreakFields) :
    exec (.declareBreak k f) s = .next ((s.hearBreak k f).finish) := by
  simp only [exec, execDeclareBreak, whenRunning_running h]

theorem exec_take (h : s.phase = .running) (k : Header) :
    exec (.take k) s = .next ((s.hearTake k).finish) := by
  simp only [exec, execTake, whenRunning_running h]

theorem exec_clearFaults (h : s.phase = .running) (k : Header) :
    exec (.clearFaults k) s = .next (s.hearClearFaults k) := by
  simp only [exec, execClearFaults, whenRunning_running h]

theorem exec_peerStart (h : s.phase = .running) (k : Header) (f : StartFields) :
    exec (.peerStart k f) s = .next ((s.hearStart k f).finish) := by
  simp only [exec, execPeerStart, whenRunning_running h]

theorem exec_peerSegue (h : s.phase = .running) (k : Header) (f : SegueFields) :
    exec (.peerSegue k f) s = .next ((s.hearSegue k f).finish) := by
  simp only [exec, execPeerSegue, whenRunning_running h]

theorem exec_peerEnd (h : s.phase = .running) (k : Header) (f : EndFields) :
    exec (.peerEnd k f) s = .next ((s.hearEnd k f).finish) := by
  simp only [exec, execPeerEnd, whenRunning_running h]

theorem exec_peerDuck (h : s.phase = .running) (k : Header) (f : DuckFields) :
    exec (.peerDuck k f) s = .next (s.hearDuck k f) := by
  simp only [exec, execPeerDuck, whenRunning_running h]

theorem exec_peerFault (h : s.phase = .running) (k : Header) (f : FaultFields) :
    exec (.peerFault k f) s = .next ((s.hearFault k f).finish) := by
  simp only [exec, execPeerFault, whenRunning_running h]

theorem exec_peerStatus (h : s.phase = .running) (k : Header) (f : StatusFields) :
    exec (.peerStatus k f) s = .next ((s.hearStatus k f).finish) := by
  simp only [exec, execPeerStatus, whenRunning_running h]

theorem exec_peerTaken (h : s.phase = .running) (k : Header) :
    exec (.peerTaken k) s = .next (s.hearTaken k) := by
  simp only [exec, execPeerTaken, whenRunning_running h]

theorem exec_peerAsrun (h : s.phase = .running) (k : Header) (f : AsRunFields) :
    exec (.peerAsrun k f) s = .next (s.hearAsrun k) := by
  simp only [exec, execPeerAsrun, whenRunning_running h]

theorem exec_frameNotHanded (h : s.phase = .running) (b : List BusBit) :
    exec (.frameNotHanded b) s = .next ((s.hearBits b).finish) := by
  simp only [exec, execFrameNotHanded, whenRunning_running h]

theorem exec_frameBegin (h : s.phase = .running) :
    exec .frameBegin s = .next (s.pairFirst.modBus CueBus.begin_) := by
  simp only [exec, execFrameBegin, whenRunning_running h]

theorem exec_arbitrationLost (h : s.phase = .running) :
    exec .arbitrationLost s = .next (s.modBus CueBus.loseArbitration) := by
  simp only [exec, execArbitrationLost, whenRunning_running h]

theorem exec_bitError (h : s.phase = .running) :
    exec .bitError s = .next (s.bitErrorAt) := by
  simp only [exec, execBitError, whenRunning_running h]

theorem exec_frameComplete (h : s.phase = .running) :
    exec .frameComplete s = .next (s.frameCompleteAt) := by
  simp only [exec, execFrameComplete, whenRunning_running h]

theorem exec_quietExpiry (h : s.phase = .running) :
    exec .quietExpiry s = .next (if s.intervalDue .quiet then s.quietExpired else s) := by
  simp only [exec, execQuietExpiry, whenRunning_running h]

theorem exec_startTimeExpiry (h : s.phase = .running) (t : Nat) :
    exec (.startTimeExpiry t) s = .next (s.airEvent (.startTime t)) := by
  simp only [exec, execStartTimeExpiry, whenRunning_running h]

theorem exec_latestStartExpiry (h : s.phase = .running) (t : Nat) :
    exec (.latestStartExpiry t) s = .next (s.airEvent (.latestStart t)) := by
  simp only [exec, execLatestStartExpiry, whenRunning_running h]

theorem exec_scheduledStartExpiry (h : s.phase = .running) (t : Nat) :
    exec (.scheduledStartExpiry t) s = .next (s.airEvent (.scheduledStart t)) := by
  simp only [exec, execScheduledStartExpiry, whenRunning_running h]

theorem exec_segueMark (h : s.phase = .running) (d : DeckNo) :
    exec (.segueMark d) s = .next ((if (s.deck d).segueDue then (s.fadeMarksFirst d).segueMarkAt d else s).finish) := by
  simp only [exec, execSegueMark, whenRunning_running h]

theorem exec_fadeMark (h : s.phase = .running) (d : DeckNo) :
    exec (.fadeMark d) s = .next ((s.fadeMarkAt d).finish) := by
  simp only [exec, execFadeMark, whenRunning_running h]

theorem exec_fadeInEnd (h : s.phase = .running) (d : DeckNo) :
    exec (.fadeInEnd d) s = .next (s.fadeInEndAt d) := by
  simp only [exec, execFadeInEnd, whenRunning_running h]

theorem exec_truncationFadeBegin (h : s.phase = .running) (d : DeckNo) :
    exec (.truncationFadeBegin d) s = .next ((s.truncBeginAt d).finish) := by
  simp only [exec, execTruncationFadeBegin, whenRunning_running h]

theorem exec_blockEntered (h : s.phase = .running) (d : DeckNo) :
    exec (.blockEntered d) s = .next ((s.blockEnteredAt d).finish) := by
  simp only [exec, execBlockEntered, whenRunning_running h]

theorem exec_itemEnd (h : s.phase = .running) (d : DeckNo) :
    exec (.itemEnd d) s
      = .next ((if (s.deck d).endDue then ((s.fadeMarksFirst d).segueFirst d).itemEndAt d else s).finish) := by
  simp only [exec, execItemEnd, whenRunning_running h]

theorem exec_skipSilent (h : s.phase = .running) (d : DeckNo) :
    exec (.skipSilent d) s = .next ((s.skipSilentAt d).finish) := by
  simp only [exec, execSkipSilent, whenRunning_running h]

theorem exec_gateOpen (h : s.phase = .running) :
    exec .gateOpen s = .next (s.gateOpenAt) := by
  simp only [exec, execGateOpen, whenRunning_running h]

theorem exec_gateClosed (h : s.phase = .running) :
    exec .gateClosed s = .next (s.gateClosedAt) := by
  simp only [exec, execGateClosed, whenRunning_running h]

theorem exec_yieldToShadow (h : s.phase = .running) :
    exec .yieldToShadow s = .next (s.yieldToShadowAt) := by
  simp only [exec, execYieldToShadow, whenRunning_running h]

theorem exec_rejoinGuard (h : s.phase = .running) (e : EntryNo) :
    exec (.rejoinGuard e) s = .next (s.airEvent (.rejoin e)) := by
  simp only [exec, execRejoinGuard, whenRunning_running h]

theorem exec_fillFadeExpiry (h : s.phase = .running) (e : EntryNo) :
    exec (.fillFadeExpiry e) s = .next (s.airEvent (.fillFade e)) := by
  simp only [exec, execFillFadeExpiry, whenRunning_running h]

theorem exec_idHoldExpiry (h : s.phase = .running) (e : EntryNo) :
    exec (.idHoldExpiry e) s = .next (s.airEvent (.idHold e)) := by
  simp only [exec, execIdHoldExpiry, whenRunning_running h]

theorem exec_peerLoss (h : s.phase = .running) (q : Station) :
    exec (.peerLoss q) s = .next (if s.intervalDue (.peerLoss q) then (s.peerLossFired q).finish else s) := by
  simp only [exec, execPeerLoss, whenRunning_running h]

theorem exec_statusBeacon (h : s.phase = .running) :
    exec .statusBeacon s = .next (if s.intervalDue .beacon then s.statusBeaconAt else s) := by
  simp only [exec, execStatusBeacon, whenRunning_running h]

theorem exec_startUpListenExpiry (h : s.phase = .running) :
    exec .startUpListenExpiry s = .next (if s.intervalDue .startUpListen then s.startUpListenFired else s) := by
  simp only [exec, execStartUpListenExpiry, whenRunning_running h]

theorem exec_listenExpiry (h : s.phase = .running) :
    exec .listenExpiry s = .next (if s.intervalDue .listen then s.listenFired.finish else s) := by
  simp only [exec, execListenExpiry, whenRunning_running h]

theorem exec_absentWatch (h : s.phase = .running) :
    exec .absentWatch s = .next (if s.intervalDue .absentWatch then s.absentWatchFired.finish else s) := by
  simp only [exec, execAbsentWatch, whenRunning_running h]

theorem exec_takenWindowExpiry (h : s.phase = .running) :
    exec .takenWindowExpiry s = .next (if s.intervalDue .takenWindow then s.cancelInterval .takenWindow else s) := by
  simp only [exec, execTakenWindowExpiry, whenRunning_running h]

theorem exec_lineIdle (h : s.phase = .running) :
    exec .lineIdle s = .next s.lineIdleAt := by
  simp only [exec, execLineIdle, whenRunning_running h]

end Sys2Proof.Machine
end

