-- ==== Sys2Proof/WellFormed.lean ====
section
/-! DEFINITION. Which commands can reach the part: checks on the operands that their types do not make. -/

namespace Sys2Proof

/-- The store returns whole units of 512 bytes, at most the 12 units of a block of format 1 (R16, R21). -/
abbrev wholeUnits (data : List Byte) : Bool := data.length % 512 == 0 && decide (data.length ≤ 12 * 512)

/-- The longest frame: 284 bit times for 24 payload bytes (R143). -/
abbrev longestFrame : Nat := 284

/-- A well-formed command: the operand fits what the line, port or memory can carry. `exec` does not ask for it. -/
def Instr.wellFormed : Instr → Bool
  | .coldReset _ => true
  | .configAttemptEnd .failed => true
  | .configAttemptEnd (.bytes d) => d.length == 42
  | .samplePeriod => true
  | .controlPeriod => true
  | .monitorWindow => true
  | .timePulse => true
  | .timeLabel _ _ => true
  | .labelWindowExpiry => true
  | .labelGap => true
  | .slewRun => true
  | .storeCompletion _ _ d => wholeUnits d
  | .readTimeout => true
  | .load _ _ => true
  | .drop _ _ => true
  | .clear _ => true
  | .go _ _ => true
  | .level _ _ => true
  | .declareBreak _ _ => true
  | .take _ => true
  | .clearFaults _ => true
  | .peerStart _ _ => true
  | .peerSegue _ _ => true
  | .peerEnd _ _ => true
  | .peerDuck _ _ => true
  | .peerFault _ _ => true
  | .peerStatus _ _ => true
  | .peerTaken _ => true
  | .peerAsrun _ _ => true
  | .frameNotHanded b => decide (b.length ≤ longestFrame)
  | .frameBegin => true
  | .arbitrationLost => true
  | .bitError => true
  | .frameComplete => true
  | .quietExpiry => true
  | .startTimeExpiry t => decide (t < 65536)
  | .latestStartExpiry t => decide (t < 65536)
  | .scheduledStartExpiry t => decide (t < 65536)
  | .segueMark _ => true
  | .fadeMark _ => true
  | .fadeInEnd _ => true
  | .truncationFadeBegin _ => true
  | .blockEntered _ => true
  | .itemEnd _ => true
  | .skipSilent _ => true
  | .gateOpen => true
  | .gateClosed => true
  | .yieldToShadow => true
  | .rejoinGuard _ => true
  | .fillFadeExpiry _ => true
  | .idHoldExpiry _ => true
  | .peerLoss _ => true
  | .statusBeacon => true
  | .startUpListenExpiry => true
  | .listenExpiry => true
  | .absentWatch => true
  | .takenWindowExpiry => true
  | .lineIdle => true

end Sys2Proof
end

