-- ==== Sys2Proof/Tests/Slice0.lean ====
section
/-! SUPPORT. The model's own tests: ill-formed commands refused, worked examples of the manual, one step each, and for every
obligation with hypotheses a state and operands that meet them. -/

namespace Sys2Proof.Tests

open Sys2Proof.Machine

set_option Elab.async false

/-! ### Ill-formed commands -/

theorem test_wellFormed_config_length : (Instr.configAttemptEnd (.bytes [0x4B])).wellFormed = false := by decide

theorem test_wellFormed_config_whole : (Instr.configAttemptEnd (.bytes (List.replicate 42 0))).wellFormed = true := by decide

theorem test_wellFormed_half_unit : (Instr.storeCompletion 0 true (List.replicate 511 0)).wellFormed = false := by decide +kernel

theorem test_wellFormed_thirteen_units : (Instr.storeCompletion 0 true (List.replicate 6656 0)).wellFormed = false := by
  decide +kernel

theorem test_wellFormed_long_frame : (Instr.frameNotHanded (List.replicate 285 true)).wellFormed = false := by decide +kernel

theorem test_wellFormed_start_tag : (Instr.startTimeExpiry 65536).wellFormed = false := by decide

theorem test_wellFormed_latest_tag : (Instr.latestStartExpiry 65536).wellFormed = false := by decide

theorem test_wellFormed_scheduled_tag : (Instr.scheduledStartExpiry 65536).wellFormed = false := by decide

/-! ### Worked examples and tables of the manual -/

/-- 13.1: the CRC of the nine ASCII characters 123456789 is 0x29B1. -/
theorem test_crc_check_value :
    crc16 (bytesToBits [0x31, 0x32, 0x33, 0x34, 0x35, 0x36, 0x37, 0x38, 0x39]) = 0x29B1 := by decide +kernel

/-- R143: a frame of no payload takes 46 bit times without its fill bits. -/
theorem test_frame_length :
    ((Notice.taken.frame 5).content ++ bitsOf (crc16 (Notice.taken.frame 5).content)).length + 7 = 46 := by decide +kernel

/-- R141: six equal bits are followed by one fill bit of the other value. -/
theorem test_fill_bit : stuffFrom true 1 [false, false, false, false, false, false, true]
    = [false, false, false, false, false, false, true, true] := by decide

/-- R6, its example: a pulse at 4,147,199,990 and a label of second 0 give e = -10 and k = +1. -/
theorem test_label_error_example : labelError 4147199990 0 = (-10, 1) := by decide

/-- R93: unity at 0, the largest and the smallest word. -/
theorem test_gain_words : gainWord 0 = 1048576 ∧ gainWord 120 = 4174456 ∧ gainWord (-900) = 33 := by decide +kernel

/-- R93 against itself: by its formula two composites give one word (assumption 7). -/
theorem test_gain_words_meet : gainWord (-899) = 34 ∧ gainWord (-898) = 34 := by decide +kernel

/-- R108: an open gate adds nothing, a closed gate sends silence. -/
theorem test_gate_ends : gateSample (-8388608) 960 = -8388608 ∧ gateSample 8388607 0 = 0 := by decide

/-- R95: the quotient goes toward zero, up and down. -/
theorem test_ramp_rounds : rampGain 0 10 0 = 0 ∧ rampGain 10 0 0 = 10 ∧ rampGain 10 0 47 = 0 := by decide

/-- R2: midnight lies between: 10 samples before Dlen is due at 0, and 0 is not due 10 samples before Dlen. -/
theorem test_due_across_midnight : isDue 4147199990 0 = true ∧ isDue 0 4147199990 = false := by decide

/-- No row of the opcode table has bits, so no word spells a command. -/
theorem test_no_word_spells_a_command : decodeTableWord 8 1 = none := by decide

/-! ### Small states -/

/-- A SOLO engine in its first sample period, with the defaults of R198. -/
def solo : State := State.reset.firstPeriod defaultConfig true

/-- The same later, on an idle line, past the first sample period of its control period. -/
def later : State := { solo with period := 2, intervals := [], bus := { solo.bus with line := .idle } }

/-- A paired engine, number 0 of partner 1, with a role state. -/
def paired (r : RoleState) : State :=
  { later with
    cfg := { defaultConfig with setting := .main, partner := some 1 }, pair := { role := r }
    mix := { later.mix with gate := if r = .live then {} else ⟨.closed, 0⟩ } }

/-- An interval expiry that is due. -/
def dueNow (s : State) (h : IntervalHandle) : State := { s with intervals := [⟨h, 0⟩] }

/-- A frame from station 5 to the engine. -/
def from5 : Header := ⟨5, 5, 0⟩

/-- A frame from the partner, station 1. -/
def from1 : Header := ⟨0, 1, 31⟩

def snap : Snapshot :=
  { cls := .song, format := 0, length := 96000, elen := 96000, segue := 90000, fadeMark := some 91200, fadeLen := 4800, trim := 0
    firstBlock := 100, blocks := 94 }

/-- A GO record on group A, ARMED on deck 0. -/
def goRecord : CueRecord :=
  { tag := 7, cart := 70, group := 1, kind := .go, startTime := none, peer := none, latest := none, fadeIn := 0, law := .linear
    fadeOut := none, displace := 0, duck := 0, breakId := none, snapshot := some snap, state := .armed, deck := some 0 }

def anItem : Item := itemOf goRecord snap

/-- Its deck: everything fetched. -/
def armedDeck : Deck :=
  { state := .armed, bound := some 7, item := some anItem, fetchPtr := 94, fetchLimit := 94, endPos := 96000 }

/-- An engine with one ARMED record of a kind. -/
def armed (k : StartKind) : State :=
  { later with records := [{ goRecord with kind := k }], decks := later.decks.set 0 armedDeck }

/-- The deck with its item on air, 100 samples in. -/
def playingDeck : Deck := { armedDeck with state := .playing, p := 100, actualStart := some 0 }

/-- An engine whose deck 0 plays, the deck changed by a function. -/
def onAir (f : Deck → Deck) : State :=
  { later with
    records := [{ goRecord with state := .onAir, actualStart := some 0 }], decks := later.decks.set 0 (f playingDeck) }

/-- An engine with a read of block 3 for deck 0 in flight. -/
def reading (p : Purpose) (retry abandoned : Bool) : State :=
  { onAir id with
    reader := { flight := some ⟨p, 8, 8, 4, retry, abandoned⟩, fetch := some ⟨.record 7, 70, none, false⟩ } }

/-- An engine sending a notice, with its error count and the error run. -/
def sending (n : Notice) (errors run : Nat) : State :=
  { later with bus := { send := .enabled, line := .sending, queue := [⟨n, 3, errors⟩], flight := some 3, errorRun := run, handed := 4 } }

/-- A break entry 0 that is RUNNING. -/
def runningEntry : BreakEntry := { state := .running, id := 9, group := 1, rejoin := 1000 }

/-- A fill record of that break on deck 0. -/
def fillOnAir : CueRecord :=
  { fillRecordOf { runningEntry with fillCart := some 70 } snap with state := .onAir, deck := some 0, actualStart := some 0 }

/-! ### Meanings, one step each -/

/-- R198: the third failed attempt takes the defaults, and the first sample period begins. -/
theorem test_third_failure_defaults :
    exec (.configAttemptEnd .failed) { State.reset with attempts := 2 } = .next { solo with attempts := 3 } := rfl

/-- R1: air time wraps at Dlen into the day number, and the day number at 65,536. -/
theorem test_midnight : ({ later.clock with airTime := 4147199999, day := 65535 } : Clock).advance
    = { later.clock with airTime := 0, day := 0 } := by decide +kernel

/-- R36: tag 0 is refused before its bad group is looked at. -/
theorem test_load_tests_in_order : solo.loadRefusal ⟨0, 1, 0, 0, 7, 0, 0, 0, 0, 0, 0, 0, 0⟩ = some .reservedTag := by decide +kernel

/-- 13.1 and 13.3: the STATUS of a SOLO engine after reset: FREE, LIVE, CONFIG_DEFAULT; three groups SOUNDING. -/
theorem test_status_after_reset : (statusBytes solo.statusNow)
    = [0x04, 0xFF, 0, 0, 0, 0, 0, 0, 0, 0, 0, 0, 0x44, 0x40] := by decide +kernel

/-- R109: an opening from 0 uses 1 first; a closing from 960 uses 958 first. -/
theorem test_gate_first_weights : (Gate.move ⟨.opening, 0⟩).weight = 1 ∧ (Gate.move ⟨.closing, 960⟩).weight = 958 := by decide

/-- R75, R76: at 100 of 480 samples of a fade, the equivalent point of a fade of 240 is 50. -/
theorem test_equivalent_point : roundDiv (100 * 240) 480 = 50 := by decide

/-- R203: with entries 2 and 5 RUNNING and the position at 5, the next report is of entry 2. -/
theorem test_report_order :
    let b : Breaks := { entries := (later.breaks.entries.set 2 runningEntry).set 5 runningEntry, reportPos := 5 }
    ({ later with breaks := b } : State).reportEntry = some 2 := by decide +kernel

/-- R130, R133, R135: a break whose R was set near 12 h ahead while a member sounds still has R as its truncation end, and a fill that
sounds still leaves a shortfall and holds a fade of the length that the room gives, 0. -/
theorem test_rejoin_half_a_day_ahead :
    let b : BreakEntry := { runningEntry with rejoin := 2073600005 }
    let s : State := { later with
      clock := { later.clock with airTime := 10 }, records := [fillOnAir], breaks := { entries := later.breaks.entries.set 0 b } }
    room b.rejoin 0 = 0 ∧ ((s.judgeFillFade 0).entry 0).fillFade = some ⟨0, b.rejoin, false⟩
      ∧ soundingTrunc b { fillOnAir with breakId := some 9 } 10 = some b.rejoin ∧ s.endsBeforeRejoin b fillOnAir = true := by
  decide +kernel

/-- R121: a takeover in the first sample period of a window leaves that window, and a complete one that awaits its judgement, unjudged. -/
theorem test_takeover_spoils_the_window :
    let s : State := { paired .shadow with monitor := { full := true } }
    s.takeAir.monitor.full = false ∧ ∀ a : Fin 3, (s.takeAir.monitor.groups[a]).window = { wholeLive := false } := by decide +kernel

/-- R181: a HARD_AT record follows the partner's START once its displacement is done, and one that has lost its deck meanwhile keeps the
start to catch up from. -/
theorem test_shadow_hard_at_keeps_the_start :
    let r : CueRecord := { goRecord with kind := .hardAt }
    let s : State := { paired .shadow with records := [r], decks := later.decks.set 0 armedDeck }
    let t : State := { s with records := [{ r with displaced := true, state := .queued, deck := none }] }
    s.followStart 7 (some 500) = (s.displaceAndOvertake r).emit [.partnerStart 7 (some 500)]
      ∧ ((t.perform (.partnerStart 7 (some 500))).find 7).map (fun u => (u.triggered, u.shadowStart)) = some (true, some 500)
      ∧ ((t.startRecord 7 (some 500) false false).find 7).map (·.shadowStart) = some (some 500) := by
  decide +kernel
/-! ### Witnesses of the obligations' hypotheses -/

theorem witness_StepTakesTheFrontCommand :
    ({ solo with pending := [.timePulse, .lineIdle] } : State).pending = .timePulse :: [.lineIdle] ∧ solo.pending = [] := by decide

theorem witness_LimitsKeptByEveryStep :
    State.Limits { later with pending := [.timePulse] } ∧ ∃ t, step { later with pending := [.timePulse] } = .next t :=
  ⟨⟨by unfold Clock.Ok; decide +kernel, by unfold State.OrderOk; decide +kernel, by unfold AsRunLog.Ok; decide +kernel,
    by decide +kernel, by decide +kernel, by unfold Peer.Ok; decide +kernel, by decide +kernel, by decide +kernel⟩, _, rfl⟩

theorem witness_FramesReadBack : (Notice.taken.frame 5).payload.length ≤ 24
    ∧ ((⟨from5, 16, List.replicate 24 255⟩ : Frame).payload).length ≤ 24 := by decide

/-- A record with a right marker and a role code. -/
def configBytes (role partner : Byte) : List Byte := [0x4B, 0x43, 0x32, 0x34, role, partner] ++ List.replicate 36 0

theorem witness_ConfigAttemptsEndInARecord :
    (State.reset.phase = .configuring ∧ State.reset.attempts < 2)
    ∧ 2 ≤ ({ State.reset with attempts := 2 } : State).attempts
    ∧ (configBytes 0 0).take 4 = [0x4B, 0x43, 0x32, 0x34] ∧ (List.replicate 42 (0 : Byte)).take 4 ≠ [0x4B, 0x43, 0x32, 0x34]
    ∧ solo.phase = .running := by decide +kernel

theorem witness_RoleSettingStartsTheEngine :
    State.reset.phase = .configuring ∧ (configBytes 1 1).take 4 = [0x4B, 0x43, 0x32, 0x34]
    ∧ (readConfig 0 (configBytes 0 1)).setting = .solo ∧ (readConfig 0 (configBytes 1 1)).setting = .main
    ∧ (readConfig 0 (configBytes 2 1)).setting = .standby := by decide +kernel

theorem witness_SamplePeriodAdvancesAirTime :
    solo.phase = .running ∧ ({ solo with clock := { solo.clock with airTime := 4147199999 } } : State).phase = .running := by
  decide

theorem witness_QuietSamplePeriodMixes :
    let s : State := { later with period := 1, controlDone := true }
    let e : State := { later with period := 48 }
    later.phase = .running ∧ later.firstDue = none ∧ later.controlIndex ≠ 0 ∧ later.bus.line ≠ .flagging
    ∧ later.monitor.storeFaults = []
    ∧ ((onAir id).firstDue = none ∧ ((onAir id).deck 0).item = some anItem ∧ ((onAir id).deck 1).item = none)
    ∧ (s.firstDue = none ∧ s.controlIndex = 0) ∧ (e.firstDue = none ∧ e.controlIndex = 47) := by decide +kernel

/-- R119, R113: at the close of a sample period its STORE FAULT is handed, and the window record takes the period (assumption 41). -/
theorem test_period_hands_its_store_fault :
    let s := onAir fun x => { x with ring := x.ring.set 0 (.filled 0 (List.replicate 4 0x7F)) }
    let s : State := { s with monitor := { s.monitor with storeFaults := [⟨2, 1⟩] } }
    s.closePeriod.bus.queue.map (·.notice) = [.fault ⟨1, 3, 1⟩] ∧ s.closePeriod.monitor.storeFaults = [] := by decide +kernel

theorem witness_FramesAreScaledSummedAndGated :
    let s := onAir fun x => { x with ring := x.ring.set 0 (.filled 0 []) }
    ((s.deck 0).sounding = true ∧ (s.deck 0).item = some anItem ∧ (s.deck 0).filledBlock ((s.deck 0).p / 1024) = some [])
    ∧ ((onAir id).deck 0).filledBlock (((onAir id).deck 0).p / 1024) = none ∧ (2 : Group) ≠ anItem.group
    ∧ (s.deck 1).sounding = false := by decide +kernel

theorem witness_GainStagesFollowTheirTables :
    let f : FadeTerm := ⟨true, 100, 480, .linear⟩
    let g : FadeTerm := ⟨true, 100, 480, .log⟩
    (f.law = .linear ∧ f.fadesIn = true ∧ f.pos < f.len ∧ ({ f with pos := 480 } : FadeTerm).len ≤ 480)
    ∧ (g.law = .log ∧ g.fadesIn = true ∧ 0 < g.pos ∧ g.pos < g.len ∧ ({ g with pos := 0 } : FadeTerm).pos = 0
      ∧ ({ g with fadesIn := false } : FadeTerm).fadesIn = false)
    ∧ fadeContribution (some g) = some (-475) ∧ fadeContribution (some { g with pos := 0 }) = none
    ∧ ((-900 : Int) ≤ -30 + 0 + -20 - 60 + -150 ∧ (-30 : Int) + 0 + -20 - 60 + -150 ≤ 120)
    ∧ ((-240 : Int) + 0 + -900 - 0 + 0 < -900) ∧ ((120 : Int) < 121) := by decide +kernel

/-- The worked case of chapter 5: a composite of -260 gives 52,553. -/
theorem witness_GainWordIsTheNearest : (-900 : Int) ≤ -260 ∧ (-260 : Int) ≤ 120 ∧ gainWord (-260) = 52553 := by decide +kernel

theorem witness_ControlPeriodComputesEachDeck :
    let s : State := { onAir id with period := 49 }
    (s.phase = .running ∧ s.controlDue = true ∧ (s.deck 0).sounding = true ∧ (s.deck 0).item = some anItem
      ∧ (s.deck 1).sounding = false) ∧ later.controlDue = false
    ∧ (s.controlIndex = 0 ∧ ({ s with controlDone := true } : State).controlDone = true) := by decide +kernel

theorem witness_DuckTargetIsAGreatestDepth :
    let q : DuckRequest := ⟨1, 120, 8⟩
    let s : State := { (onAir id).setRequest 1 (some q) with
      peers := { entries := solo.peers.entries.set 4 { ducks := [⟨1, 400, 9⟩] } } }
    ({ anItem with cls := .advert } : Item).cls = .advert ∧ s.domain 0 = 0
    ∧ anItem.cls ≠ .advert ∧ s.domain anItem.group ≠ 0 ∧ (1 : DeckNo) ≠ 0 ∧ s.mix.requests[(1 : DeckNo)] = some q
    ∧ q.domain = s.domain anItem.group ∧ ⟨1, 400, 9⟩ ∈ (s.peer 4).ducks ∧ s.partner = none
    ∧ (let p : State := { paired .live with
        decks := (onAir id).decks, peers := { entries := solo.peers.entries.set 1 { ducks := [⟨1, 90, 7⟩, ⟨1, 60, 9⟩] } } }
       p.partner = some 1 ∧ (p.deck 0).bound = some 7 ∧ ⟨1, 90, 7⟩ ∈ (p.peer 1).ducks ∧ ⟨1, 60, 9⟩ ∈ (p.peer 1).ducks
         ∧ p.duckTarget 0 anItem = 60) := by decide +kernel

/-- A monitor whose window is full, group A's changed by a function. -/
def fullWindow (f : GroupMonitor → GroupMonitor) : State :=
  { later with monitor := { later.monitor with groups := later.monitor.groups.set 0 (f {}), full := true } }

theorem witness_MonitorWindowJudgesEachGroup :
    (later.monitor.full = false ∧ later.phase = .running ∧ later.period % 480 ≠ 0
      ∧ ({ later with period := 480 } : State).period % 480 = 0)
    ∧ (paired .shadow).isLive = false
    ∧ (fullWindow id).monitor.full = true ∧ (({} : Window).wholeLive = true ∧ ({} : Window).silent 16384 = true)
    ∧ ({ wholeLive := false } : Window).wholeLive = false
    ∧ ({ peak := 20000, sounding := true, overload := true } : Window).silent 16384 = false
    ∧ ((fullWindow fun g => { g with state := .deadAir, silence := 800 }).monitor.groups[0]).state = .deadAir
    ∧ ((fullWindow fun g => { g with state := .silent, silence := 799, overloadRun := 2 }).monitor.groups[0]).overloadRun ≤ 3 := by
  decide +kernel

theorem witness_PulsesLatchAndRejectedLabelsAreCounted :
    let w : State := { later with clock := { later.clock with pulse := some ⟨480, 0⟩ } }
    later.phase = .running ∧ later.AtRest ∧ later.clock.pulse = none
    ∧ w.AtRest ∧ w.clock.pulse.isSome = true ∧ 86399 < 86400 ∧ (dueNow w .labelWindow).intervalDue .labelWindow = true := by
  unfold State.AtRest State.NoGrant; decide +kernel

/-- An engine with a pulse latched at an air time, waiting for its label, in a clock state. -/
def waiting (s : State) (c : ClockState) (a : Nat) : State :=
  { s with clock := { s.clock with state := c, airTime := a + 100, pulse := some ⟨a, 0⟩ } }

theorem witness_SmallLabelsSlew :
    (let c : Clock := { later.clock with lastLabel := some ⟨2, false⟩ };
      (4147199999 < 4147200000 ∧ 86399 ≤ 86399 ∧ (2073600000 : Int) ≤ (2073600000 : Nat) - (0 : Nat) * 48000
        ∧ ((0 : Nat) : Int) - (43201 : Nat) * 48000 < -2073600000
        ∧ (-2073600000 : Int) ≤ ((0 : Nat) : Int) - (43200 : Nat) * 48000)
      ∧ later.clock.lastLabel = none ∧ c.lastLabel = some ⟨2, false⟩ ∧ 96002 ≤ 2 + 96000) ∧
    (let w : State := { waiting later .locked 480007 with
        clock := { (waiting later .locked 480007).clock with remainder := 8, slewRun := 1000, offset := true } };
      w.phase = .running ∧ w.AtRest ∧ w.clock.pulse = some ⟨480007, 0⟩ ∧ w.slewRunAt.clock.remainder = 7) ∧
    let l := waiting later .locked 480480
    (l.phase = .running ∧ l.AtRest ∧ l.clock.state = .locked ∧ l.clock.pulse = some ⟨480480, 0⟩ ∧ 10 ≤ 86399
      ∧ (l.clock.measure ⟨480480, 0⟩ l.period 0 10).error.natAbs = 480) ∧
    let s := waiting later .acquire 480002
    let t := waiting (onAir id) .free 480003
    (s.phase = .running ∧ s.AtRest ∧ s.clock.state = .acquire ∧ s.clock.pulse = some ⟨480002, 0⟩
      ∧ (s.clock.measure ⟨480002, 0⟩ s.period 0 10).error.natAbs = 2)
    ∧ (t.phase = .running ∧ t.AtRest ∧ t.clock.state = .free ∧ t.anySounding = true
      ∧ (t.clock.measure ⟨480003, 0⟩ t.period 0 10).error.natAbs = 3)
    ∧ (waiting later .holdover 480000).clock.state = .holdover := by
  unfold State.AtRest State.NoGrant; decide +kernel

theorem witness_LargeLabelsStepOrSlew :
    let s := waiting later .free 480000
    let t := waiting later .acquire 480481
    let u := waiting (onAir id) .locked 480481
    (s.phase = .running ∧ s.anySounding = false ∧ s.clock.pulse = some ⟨480000, 0⟩ ∧ s.clock.state = .free)
    ∧ (t.anySounding = false ∧ 480 < (t.clock.measure ⟨480481, 0⟩ t.period 0 10).error.natAbs)
    ∧ (u.phase = .running ∧ u.AtRest ∧ u.anySounding = true ∧ u.clock.pulse = some ⟨480481, 0⟩
      ∧ 480 < (u.clock.measure ⟨480481, 0⟩ u.period 0 10).error.natAbs) := by
  unfold State.AtRest State.NoGrant; decide +kernel

theorem witness_LabelGapsAndSlewRuns :
    (dueNow later .labelGap).phase = .running ∧ (dueNow later .labelGap).intervalDue .labelGap = true
    ∧ (let s : State := { later with clock := { later.clock with remainder := -1, slewRun := 1000, offset := true } }
       s.phase = .running ∧ s.clock.remainder ≠ 0 ∧ 1000 ≤ s.clock.slewRun)
    ∧ later.clock.remainder = 0
    ∧ ({ later.clock with remainder := 1, slewRun := 999 } : Clock).slewRun < 1000 := by decide +kernel

theorem witness_ReadsEndByTheirNumber :
    let s := reading .directory false false
    let r : StoreRead := ⟨.directory, 8, 8, 4, false, false⟩
    (later.phase = .running ∧ later.reader.flight = none)
    ∧ (s.work = [] ∧ s.reader.flight = some r ∧ r.abandoned = false ∧ r.retry = false ∧ r.number = (4 : BitVec 8).toNat
      ∧ (dueNow s .readTimeout).intervalDue .readTimeout = true ∧ (dueNow s .readTimeout).reader.flight = some r)
    ∧ (reading .directory false true).reader.flight = some { r with abandoned := true } := by decide +kernel

theorem witness_HeaderFetchReadsInTurn :
    let s := reading .directory false false
    let t := reading .header true false
    let r : StoreRead := ⟨.directory, 8, 8, 4, false, false⟩
    (s.phase = .running ∧ s.reader.flight = some r ∧ r.purpose = .directory ∧ s.reader.fetch = some ⟨.record 7, 70, none, false⟩)
    ∧ directoryEntry 70 [] = 0 ∧ directoryEntry 0 [0, 0, 0, 5] ≠ 0
    ∧ (t.reader.flight = some ⟨.header, 8, 8, 4, true, false⟩ ∧ t.reader.fetch = some ⟨.record 7, 70, none, false⟩
      ∧ (dueNow t .readTimeout).intervalDue .readTimeout = true) := by
  decide +kernel

/-- The first 62 bytes of a header: song 70 of format 0, 1,000 frames, no marks. -/
def aHeader : List (List Byte) :=
  [[0x4B, 0x43, 0x52, 0x54, 0, 70, 1, 0, 0, 0, 0x03, 0xE8], List.replicate 8 0xFF, List.replicate 14 0, List.replicate 14 0,
    List.replicate 14 0]

theorem crc_aHeader : crc16 (bytesToBits aHeader.flatten) = 0xA99D := by
  have h0 : (bytesToBits [0x4B, 0x43, 0x52, 0x54, 0, 70, 1, 0, 0, 0, 0x03, 0xE8]).foldl crcStep 0xFFFF = 0xC373 := by decide +kernel
  have h1 : (bytesToBits (List.replicate 8 0xFF)).foldl crcStep 0xC373 = 0x3926 := by decide +kernel
  have h2 : (bytesToBits (List.replicate 14 0)).foldl crcStep 0x3926 = 0x6931 := by decide +kernel
  have h3 : (bytesToBits (List.replicate 14 0)).foldl crcStep 0x6931 = 0x58C5 := by decide +kernel
  have h4 : (bytesToBits (List.replicate 14 0)).foldl crcStep 0x58C5 = 0xA99D := by decide +kernel
  have app (a b : List Byte) : bytesToBits (a ++ b) = bytesToBits a ++ bytesToBits b := List.flatMap_append
  simp only [crc16, aHeader, List.flatten_cons, List.flatten_nil, List.append_nil, app, List.foldl_append, h0, h1, h2, h3, h4]

theorem witness_HeaderSnapshotsAreInRange : ∃ sn, readHeader 70 (aHeader.flatten ++ [0xA9, 0x9D]) = .snapshot sn := by
  have k1 : ((aHeader.flatten ++ [0xA9, 0x9D]).take 64).take 62 = aHeader.flatten := by decide +kernel
  have k2 : headerPasses 70 ((aHeader.flatten ++ [0xA9, 0x9D]).take 64) = true := by
    unfold headerPasses
    rw [k1, crc_aHeader]
    decide +kernel
  exact ⟨_, if_pos k2⟩

theorem witness_BlocksFillTheirSlots :
    let s := reading (.block 0 5 3) false false
    let t := reading (.block 0 5 3) true false
    (s.phase = .running ∧ s.reader.flight = some ⟨.block 0 5 3, 8, 8, 4, false, false⟩ ∧ (s.deck 0).sounding = true)
    ∧ (t.reader.flight = some ⟨.block 0 5 3, 8, 8, 4, true, false⟩ ∧ (t.deck 0).sounding = true ∧ (t.deck 0).item = some anItem
      ∧ (t.deck 0).run < 3 ∧ (dueNow t .readTimeout).intervalDue .readTimeout = true)
    ∧ (let u := t.modDeck 0 fun x => { x with run := 3 }
       (u.deck 0).run = 3 ∧ (u.deck 0).storeEnd = false ∧ (u.deck 0).state = .playing ∧ (u.deck 0).fadeIn = none
         ∧ (u.deck 0).segued = false ∧ (u.deck 0).bound = some 7) := by decide +kernel

theorem witness_FramesAreScreened :
    let narrow : State := { later with cfg := { later.cfg with mask := 1 } }
    (noticeHeader (.clear ⟨5, 0, 0⟩) = some ⟨5, 0, 0⟩ ∧ senderOf ⟨5, 0, 0⟩ = later.ownStation ∧ later.bus.line.Reads)
    ∧ (solo.phase = .running ∧ solo.AtRest ∧ solo.bus.line = .waitIdle)
    ∧ ((sending .taken 0 0).AtRest ∧ (sending .taken 0 0).bus.line = .sending)
    ∧ (addressedHeader (.clear from5) = some from5 ∧ later.AtRest ∧ later.Hears from5)
    ∧ (later.forSelf ⟨5, 5, 3⟩ = false ∧ later.forPartner ⟨5, 5, 3⟩ = false ∧ later.Hears ⟨5, 5, 3⟩)
    ∧ (narrow.AtRest ∧ narrow.Hears from5 ∧ narrow.forSelf from5 = true ∧ narrow.masked from5 = false) := by
  unfold State.AtRest State.NoGrant State.Hears LineState.Reads; decide +kernel

/-- A LOAD of cart 70 as tag 7, AFTER_PREV on group A. -/
def aLoad : LoadFields := ⟨7, 70, 2, 0, 1, 0xFFFFFFFF, 0xFFFFFFFF, 0, 0xFFFF, 0, 0, 0, 0⟩

theorem witness_RefusedLoadsAreLogged :
    let full : State := { later with records := List.replicate 48 goRecord }
    (((0 : BitVec 16).toNat = 0 ∧ 65280 ≤ (65280 : BitVec 16).toNat ∧ (65279 : BitVec 16).toNat < 65280)
      ∧ (3 < (4 : Byte).toNat ∧ 5 < (6 : BitVec 3).toNat ∧ 1 < (2 : BitVec 2).toNat ∧ (1 : BitVec 3).toNat ≤ 1
        ∧ 4147200000 ≤ (4147200000 : BitVec 32).toNat ∧ (4147200000 : BitVec 32).toNat ≠ 0xFFFFFFFF
        ∧ (0x10000900 : BitVec 32).toNat / 2 ^ 24 = 16 ∧ (0x05000000 : BitVec 32).toNat / 2 ^ 8 % 2 ^ 16 = 0)
      ∧ 7 ∈ (armed .go).tags ∧ (7 ∉ later.tags ∧ later.records.length < 48) ∧ (6 ∉ full.tags ∧ 48 ≤ full.records.length))
    ∧ later.Takes from5 ∧ later.AtRest ∧ later.loadRefusal { aLoad with tag := 65280 } = some .reservedTag
    ∧ later.log.records.length < 32 ∧ 32 ≤ (List.replicate 32 (refusedLoad aLoad .full)).length := by
  unfold State.AtRest State.NoGrant State.Takes State.Hears LineState.Reads State.tags; decide +kernel

/-- R36: each test's boundary value, one by one. -/
theorem test_load_boundaries :
    later.loadRefusal { aLoad with tag := 65279 } = none ∧ later.loadRefusal { aLoad with group := 4 } = some .badField
    ∧ later.loadRefusal { aLoad with kind := 4, start := 0x0F000100 } = none
    ∧ later.loadRefusal { aLoad with kind := 4, start := 0x10000100 } = some .badField
    ∧ later.loadRefusal { aLoad with kind := 0, start := 4147199999 } = none
    ∧ later.loadRefusal { aLoad with latest := 4147200000 } = some .badField := by decide +kernel

theorem witness_AcceptedLoadsJoinTheOrder :
    let g : LoadFields := { aLoad with kind := 4, start := 0x05000900 }
    later.Takes from5 ∧ later.loadRefusal aLoad = none ∧ later.reader.queue.length < 48
    ∧ (later.loadRefusal { aLoad with kind := 0, start := 48000, latest := 96000, breakId := 9 } = none)
    ∧ (later.loadRefusal g = none ∧ readStartKind g.kind = some .afterPeer) := by
  unfold State.Takes State.Hears LineState.Reads; decide +kernel

theorem witness_BindingTakesTheLowestIdleDeck :
    let q : CueRecord := { goRecord with tag := 6, state := .queued, deck := none }
    let v : CueRecord := { goRecord with deck := some 3 }
    let s : State := { later with records := [q] }
    let b : Deck := { armedDeck with state := .playing }
    let t : State := { later with records := [q, v], decks := ⟨#[b, b, b, armedDeck], rfl⟩ }
    (s.records.find? (fun r => r.state == .queued) = some q ∧ q.snapshot = some snap ∧ (s.deck 0).state = .idle)
    ∧ (t.records.find? (fun r => r.state == .queued) = some q ∧ (∀ e : DeckNo, (t.deck e).state ≠ .idle)
      ∧ t.records.reverse.find? (fun u => (u.state == .bound || u.state == .armed) && !u.triggered) = some v ∧ v.deck = some 3
      ∧ v.tag ∈ ((t.records.dropWhile fun u => u.tag != q.tag).drop 1).map (·.tag))
    ∧ ({ t with records := [v, q] } : State).records.find? (fun r => r.state == .queued) = some q
    ∧ (let p : State := later.setDeck 0 { armedDeck with state := .priming }
       (p.deck 0).bound = some 7 ∧ (p.deck 0).state = .priming ∧ (∀ i : Fin 16, ((p.deck 0).ring[i]).isInFlight = false)
         ∧ (p.deck 0).fetchLimit ≤ (p.deck 0).fetchPtr) := by decide +kernel

theorem witness_DropsActByTheRecordsState :
    let s := armed .go
    let t := onAir id
    let f (p : Nat) (r : Reason) := onAir fun x => { x with state := .fading, fadeOut := some ⟨p, 480, .log, ⟨.faded, r⟩⟩ }
    let k (n : Nat) : CueRecord := { goRecord with state := .onAir, actualStart := some 0, fadeOut := some n }
    let g (p n : Nat) : State := { f p .store with records := [k n] }
    (s.Takes from5 ∧ s.find (7 : BitVec 16).toNat = some goRecord ∧ goRecord.unstarted = true ∧ s.log.records.length < 32)
    ∧ (t.Takes from5 ∧ ∃ r, t.find (7 : BitVec 16).toNat = some r ∧ r.state = .onAir ∧ r.deck = some 0
      ∧ (t.deck 0).state = .playing ∧ (t.deck 0).fadeIn = none ∧ 0 < r.fadeOutLen)
    ∧ (later.Takes from5 ∧ later.AtRest ∧ later.find (7 : BitVec 16).toNat = none)
    ∧ ((f 0 .byLoader).Takes from5 ∧ (f 0 .byLoader).AtRest ∧ ((f 0 .byLoader).deck 0).state = .fading
      ∧ ((f 0 .byLoader).deck 0).fadeOut = some ⟨0, 480, .log, ⟨.faded, .byLoader⟩⟩
      ∧ ((f 0 .byLoader).find (7 : BitVec 16).toNat).map (fun u => (u.state, u.deck)) = some (.onAir, some 0))
    -- the store-end fade: a DROP whose fade ends in the same sample period, one that ends earlier by one, one that has nothing left
    ∧ (∀ x ∈ [(0, 480), (0, 479), (479, 10), (0, 0)], (g x.1 x.2).Takes from5 ∧ (g x.1 x.2).AtRest
      ∧ (g x.1 x.2).find (7 : BitVec 16).toNat = some (k x.2) ∧ (k x.2).deck = some 0 ∧ (k x.2).fadeOutLen = x.2
      ∧ ((g x.1 x.2).deck 0).state = .fading ∧ ((g x.1 x.2).deck 0).fadeOut = some ⟨x.1, 480, .log, ⟨.faded, .store⟩⟩)
    ∧ ((480 : Int) - 0 ≤ 480 - ((2 * (0 * 480) + 480) / (2 * 480) : Nat)
      ∧ (479 : Int) - ((2 * (0 * 479) + 480) / (2 * 480) : Nat) < 480 - 0 ∧ (2 * (0 * 479) + 480) / (2 * 480) < 479
      ∧ 10 ≤ (2 * (479 * 10) + 480) / (2 * 480)
      ∧ (10 : Int) - ((2 * (479 * 10) + 480) / (2 * 480) : Nat) < 480 - 479) := by
  unfold State.Takes State.Hears LineState.Reads State.AtRest State.NoGrant
  exact ⟨by decide +kernel, ⟨by decide +kernel, { goRecord with state := .onAir, actualStart := some 0 }, by decide +kernel⟩,
    by decide +kernel, by decide +kernel, by decide +kernel, by decide +kernel⟩

theorem witness_ClearEmptiesTheEngine :
    let s := onAir id
    let k := onAir fun x => { x with state := .fading, fadeOut := some ⟨100, 580, .log, ⟨.faded, .byLoader⟩⟩ }
    let r : CueRecord := { goRecord with state := .onAir, actualStart := some 0 }
    (s.Takes from5 ∧ s.OrderOk ∧ s.work = [])
    ∧ (r ∈ s.records ∧ r.state = .onAir ∧ r.deck = some 0 ∧ (s.deck 0).bound = some r.tag
      ∧ (∀ u ∈ s.records, u.deck = some 0 → u.tag = r.tag) ∧ (∀ e : DeckNo, (s.deck e).bound = some r.tag → e = 0)
      ∧ (s.deck 0).state = .playing ∧ (s.deck 0).fadeIn = none ∧ (s.deck 0).fadeOut = none)
    ∧ (k.Takes from5 ∧ k.OrderOk ∧ (k.deck 0).state = .fading
      ∧ (k.deck 0).fadeOut = some ⟨100, 580, .log, ⟨.faded, .byLoader⟩⟩ ∧ 580 ≤ 100 + 480) := by
  unfold State.Takes State.Hears LineState.Reads State.OrderOk; decide +kernel

theorem ready_armed (k : StartKind) (h : k ≠ .hardAt) : (armed k).Ready 7 { goRecord with kind := k } 0 anItem :=
  ⟨rfl, rfl, rfl, h, rfl, rfl⟩

theorem witness_GosStartTheEarliestArmedRecord :
    (armed .go).Takes from5
    ∧ (armed .go).records.find? (fun r => r.group.val == (1 : Byte).toNat && r.kind == .go && r.state == .armed) = some goRecord
    ∧ (armed .go).Ready 7 goRecord 0 anItem
    ∧ (later.Takes from5 ∧ later.AtRest ∧ later.records = [])
    ∧ ((paired .shadow).Takes from5 ∧ (paired .shadow).AtRest ∧ (paired .shadow).isLive = false) :=
  ⟨by unfold State.Takes State.Hears LineState.Reads; decide +kernel, by decide +kernel, ready_armed .go (by decide),
    by unfold State.Takes State.Hears LineState.Reads State.AtRest State.NoGrant; decide +kernel⟩

theorem witness_LevelAndClearFaultsActAlone :
    (later.monitor.full = false ∧ (fullWindow id).Takes from5 ∧ (fullWindow id).monitor.full = true)
    ∧ later.Takes from5 ∧ (3 : Byte).toNat < 4 ∧ (7 : Byte).toNat = 7 ∧ 4 ≤ (4 : Byte).toNat ∧ (4 : Byte).toNat ≠ 7 := by
  unfold State.Takes State.Hears LineState.Reads; decide +kernel

/-- A BREAK of id 9 on group A, rejoin at 48,000, no fill. -/
def aBreak : BreakFields := ⟨9, 1, 48000, 0⟩

theorem witness_BreaksAreDeclared :
    let full : State := { later with breaks := { entries := Vector.replicate 8 runningEntry } }
    let held (x : BreakState) : State := { later with
      breaks := { entries := later.breaks.entries.set 0 { runningEntry with state := x, idHold := x = .ended } } }
    (later.Takes from5 ∧ aBreak.id ≠ 0 ∧ 1 ≤ aBreak.group.toNat ∧ aBreak.group.toNat ≤ 3 ∧ aBreak.rejoin.toNat < 4147200000
      ∧ (∀ i : EntryNo, ¬ ((later.entry i).holdsId = true ∧ (later.entry i).id = aBreak.id.toNat))
      ∧ (later.entry 0).state = .free ∧ ∀ i : EntryNo, i < 0 → (later.entry i).state ≠ .free)
    ∧ (∀ x ∈ [BreakState.declared, .running, .ended], (held x).Takes from5 ∧ ((held x).entry 0).holdsId = true
      ∧ ((held x).entry 0).id = aBreak.id.toNat ∧ ((held x).entry 0).state = x)
    ∧ ((held .ended).AtRest ∧ ((held .running).entry 0).fillCart = none ∧ ({ aBreak with fill := 70 } : BreakFields).fill.toNat ≠ 0)
    ∧ (later.AtRest ∧ 3 < ({ aBreak with group := 4 } : BreakFields).group.toNat)
    ∧ (full.Takes from5 ∧ full.AtRest
      ∧ ∀ i : EntryNo, (full.entry i).holdsId = true ∧ (full.entry i).id ≠ ({ aBreak with id := 3 } : BreakFields).id.toNat) := by
  unfold State.Takes State.Hears LineState.Reads State.AtRest State.NoGrant; decide +kernel

/-- The reuse of an ENDED entry in the same statement. -/
theorem witness_EndedEntriesAreReused :
    let u : State := { later with breaks := { entries :=
      (Vector.replicate 8 { runningEntry with id := 3 }).set 5 { runningEntry with state := .ended } } }
    u.Takes from5 ∧ (∀ i : EntryNo, ¬ ((u.entry i).holdsId = true ∧ (u.entry i).id = aBreak.id.toNat))
    ∧ (∀ i : EntryNo, (u.entry i).state ≠ .free) ∧ (u.entry 5).state = .ended ∧ (u.entry 5).idHold = false
    ∧ ∀ i : EntryNo, i < 5 → ¬ ((u.entry i).state = .ended ∧ (u.entry i).idHold = false) := by
  unfold State.Takes State.Hears LineState.Reads; decide +kernel

/-- A RUNNING break of rejoin time 1,000 with a member ARMED and its fill READY. -/
def fitting (x : BreakState) : State :=
  { later with
    records := [{ goRecord with breakId := some 9 }], decks := later.decks.set 0 armedDeck
    breaks := { entries := later.breaks.entries.set 0 { runningEntry with
      state := x, idHold := x = .ended, fillCart := some 70, fillState := .ready, fillSnapshot := some snap } } }

theorem witness_MembersRunTheFits :
    let r : CueRecord := { goRecord with breakId := some 9 }
    (∀ x ∈ [BreakState.declared, .running, .ended], (fitting x).find 7 = some r ∧ r.breakId = some 9 ∧ (fitting x).entryOf 9 = some 0
      ∧ ((fitting x).entry 0).group = r.group ∧ ((fitting x).entry 0).state = x)
    ∧ r.tag ≠ 65280 + ((fitting .declared).entry 0).id
    ∧ ((armed .go).find 7 = some goRecord ∧ goRecord.breakId = none)
    ∧ (later.entryOf 9 = none ∧ ((fitting .running).entry 0).group = 1 ∧ ((fitting .running).entry 0).group ≠ 2)
    ∧ ((later.entry 0).fillState ≠ .waiting
      ∧ ((later.setEntry 0 { runningEntry with fillState := .waiting }).entry 0).fillState = .waiting) := by decide +kernel

theorem witness_FitsKeepShortenAndDrop :
    let s := fitting .running
    let b := s.entry 0
    let n (k : Nat) : CueRecord := { goRecord with breakId := some 9, snapshot := some { snap with elen := k, cls := .advert } }
    (b.state = .running ∧ s.OrderOk ∧ s.log.records.length + s.records.length ≤ 32
      ∧ ((s.judgeFillFade 0).planFit ((s.judgeFillFade 0).entry 0)).drops = [7])
    ∧ ((n 100).snapshot = some { snap with elen := 100, cls := .advert } ∧ 100 ≤ room b.rejoin s.now ∧ room b.rejoin s.now < 2000)
    ∧ (24000 < room 50000 s.now ∧ room 50000 s.now < snap.elen ∧ snap.elen ≤ room 100000 s.now)
    ∧ (s.fillRecord b = none ∧ b.fillStatus = .unplaced ∧ b.fillState = .ready ∧ 0 < room b.rejoin s.now
      ∧ b.fillSnapshot = some snap)
    ∧ (({ s with breaks := { entries := s.breaks.entries.set 0 { b with rejoin := 50000 } } } : State).planFit
        { b with rejoin := 50000 }).truncs = [(7, some 50000)]
    ∧ (later.entry 0).state ≠ .running := by unfold State.OrderOk; decide +kernel

/-- The placing and the refusal of a fill in the same statement. -/
theorem witness_FillsArePlaced :
    let w : State := fitting .running
    let s := w.setEntry 0 { w.entry 0 with rejoin := 200000 }
    let plan := (s.judgeFillFade 0).planFit ((s.judgeFillFade 0).entry 0)
    (s.OrderOk ∧ (s.entry 0).state = .running ∧ plan.prior.map (·.tag) = some 7 ∧ (s.entry 0).fillSnapshot = some snap
      ∧ s.records.length < 48 ∧ ((s.judgeFillFade 0).planFill (s.entry 0) plan.prior 96000).place = true)
    ∧ ((s.fit 0).tags = [7, 65289] ∧ ((s.fit 0).entry 0).fillStatus = .placed) := by
  unfold State.OrderOk State.tags; decide +kernel

/-- A full list that refuses the fill, and an unstarted fill that is dropped with no room, in the same statement. -/
theorem witness_FillsAreRefusedOrDropped :
    let w : State := fitting .running
    let f := w.setEntry 0 { w.entry 0 with rejoin := 200000 }
    let s : State := { f with records := f.records ++ (List.range 47).map fun i =>
      { goRecord with tag := 100 + i, group := 2, state := .headerWait, deck := none, snapshot := none } }
    let plan := s.planFit (s.entry 0)
    let d : State := { f with records := fillRecordOf (f.entry 0) snap :: f.records }
    let dp := d.planFit (d.entry 0)
    (s.OrderOk ∧ 48 ≤ s.records.length ∧ plan.drops = [] ∧ plan.prior.map (·.tag) = some 7
      ∧ (s.planFill (s.entry 0) plan.prior 96000).place = true ∧ (s.planFill (s.entry 0) plan.prior 96000).drop = none
      ∧ ((s.fit 0).entry 0).short = true)
    ∧ (d.OrderOk ∧ (d.planFill (d.entry 0) dp.prior 96000).drop = some 65289
      ∧ (d.planFill (d.entry 0) dp.prior 200000).place = false ∧ (d.planFill (d.entry 0) dp.prior 200000).drop = some 65289) := by
  unfold State.OrderOk State.tags; decide +kernel

theorem witness_TakeoverEventsTakeTheAir :
    let l := paired .listen
    let s := paired .shadow
    ((s.Takes from5 ∧ s.forSelf from5 = true ∧ s.pair.role ≠ .live) ∧ l.pair.role ≠ .live)
    ∧ (s.Hears from1 ∧ s.partner = some (senderOf from1) ∧ s.pair.role = .shadow)
    ∧ ((dueNow l .listen).intervalDue .listen = true ∧ (dueNow l .listen).pair.role = .listen)
    ∧ ((dueNow s .absentWatch).intervalDue .absentWatch = true ∧ (dueNow s .absentWatch).partner = some 1
      ∧ ((dueNow s .absentWatch).peer 1).presence = .absent)
    ∧ (dueNow s (.peerLoss 1)).intervalDue (.peerLoss 1) = true
    ∧ (later.Takes from5 ∧ later.AtRest ∧ later.pair.role = .live)
    ∧ (s.Takes ⟨5, 5, 1⟩ ∧ s.AtRest ∧ s.forSelf ⟨5, 5, 1⟩ = false)
    ∧ ((dueNow s .listen).AtRest ∧ (dueNow s .listen).intervalDue .listen = true)
    ∧ ((dueNow l .absentWatch).AtRest ∧ (dueNow l .absentWatch).intervalDue .absentWatch = true) := by
  unfold State.Takes State.Hears LineState.Reads State.AtRest State.NoGrant; decide +kernel

/-- The absent watch of a STANDBY whose partner is heard and LIVE, in the same statement. -/
theorem witness_AbsentWatchFindsThePartnerLive :
    let w : State := { dueNow (paired .shadow) .absentWatch with
      peers := { entries := later.peers.entries.set 1 { presence := .present, role := some .live } } }
    w.phase = .running ∧ w.AtRest ∧ w.intervalDue .absentWatch = true ∧ w.pair.role = .shadow ∧ w.partner = some 1
    ∧ (w.peer 1).presence ≠ .absent ∧ (w.peer 1).role = some .live := by
  unfold State.AtRest State.NoGrant; decide +kernel

theorem witness_TakingTheAirMarksWhatSounds :
    let s : State := { onAir id with pair := { role := .shadow } }
    let u := s.setRequest 0 (some ⟨1, 120, 7⟩)
    (s.deck 0).sounding = true ∧ (s.deck 0).bound = some 7 ∧ (s.deck 0).item = some anItem ∧ (s.deck 0).actualStart = some 0
    ∧ (s.find 7).isSome = true
    ∧ (u.bus.queue = [] ∧ u.mix.requests[(0 : DeckNo)] = some ⟨1, 120, 7⟩
      ∧ (allDecks.countP fun e => u.mix.requests[e].isSome) + (allDecks.countP fun e => (u.deck e).sounding) ≤ 7) := by
  decide +kernel

theorem witness_PartnersItemsAreFollowed :
    let s : State := { armed .go with pair := { role := .shadow } }
    let t (live : Bool) : State := { onAir id with
      pair := { role := .shadow }, records := [{ goRecord with state := .onAir, actualStart := some 0, airedLive := live }] }
    ((armed .go).isLive = true ∧ (paired .shadow).find 7 = none)
    ∧ (s.isLive = false ∧ s.find 7 = some goRecord ∧ goRecord.unstarted = true ∧ goRecord.state = .armed ∧ goRecord.kind ≠ .hardAt
      ∧ goRecord.deck = some 0 ∧ (s.deck 0).item = some anItem)
    ∧ ({ s with records := [{ goRecord with state := .queued, deck := none }] } : State).isLive = false
    ∧ (∀ live, (t live).isLive = false ∧ ((t live).find 7).any (fun r => r.state == .onAir && r.airedLive == live) = true
      ∧ ((t live).deck 0).sounding = true) := by decide +kernel

/-- R83: a record whose shadow start is answered late, by an engine that is LIVE by then, hands START and no SEGUE for a mark it has
passed, though the fit of its start changes its truncation end (assumption 16). -/
theorem test_passed_segue_is_not_sent :
    let b : BreakEntry := { runningEntry with rejoin := 6000 }
    let s : State := { armed .go with
      clock := { later.clock with airTime := 5000 }
      records := [{ goRecord with breakId := some 9, snapshot := some { snap with segue := 1000 } }]
      decks := later.decks.set 0 { armedDeck with item := some { anItem with segue := 1000, breakId := some 9 } }
      breaks := { later.breaks with entries := later.breaks.entries.set 0 b } }
    let t := ({ s with work := [.start 7 (some 0) false true] } : State).finish
    (t.bus.queue.map (·.notice.kindCode.toNat)) = [(Notice.start ⟨0, 0, 0, 0, 0, 0, 0, 0⟩).kindCode.toNat]
    ∧ (t.deck 0).segued = true ∧ (t.deck 0).p = 5000 ∧ (t.find 7).any (·.truncEnd == some 6000) = true := by decide +kernel

theorem witness_TakenIsAnsweredByWindowAndNumber :
    let s := paired .live
    later.Hears from5 ∧ later.partner ≠ some (senderOf from5)
    ∧ (s.Hears from1 ∧ s.partner = some (senderOf from1) ∧ s.pair.role = .live ∧ s.pair.yielding = false
      ∧ s.hasInterval .takenWindow = false)
    ∧ ((dueNow s .takenWindow).hasInterval .takenWindow = true ∧ s.ownStation.val < (senderOf from1).val
      ∧ (dueNow s .takenWindow).intervalDue .takenWindow = true)
    ∧ ({ s with pair := { s.pair with yielding := true } } : State).pair.yielding = true
    ∧ (({ s with mix := { s.mix with gate := ⟨.opening, 0⟩ } } : State).mix.gate.state = .opening ∧ s.mix.gate.state = .opened)
    ∧ ((paired .shadow).Hears from1 ∧ (paired .listen).Hears from1) := by
  unfold State.Hears LineState.Reads; decide +kernel

theorem witness_GateEndsLeadToTheReports :
    let g (x : Gate) : State := { later with mix := { later.mix with gate := x } }
    let y : State := { paired .live with pair := { role := .live, yielding := true, closedAt := some 1 } }
    ((g ⟨.opening, 960⟩).phase = .running ∧ (g ⟨.opening, 960⟩).mix.gate.state = .opening)
    ∧ ((g ⟨.closing, 0⟩).mix.gate.state = .closing ∧ (g ⟨.closing, 0⟩).mix.gate.weight = 0)
    ∧ (g ⟨.opening, 959⟩).mix.gate.weight < 960 ∧ (g ⟨.closing, 2⟩).mix.gate.weight ≠ 0
    ∧ (y.phase = .running ∧ y.pair.yielding = true ∧ y.pair.closedAt = some 1 ∧ 1 < y.period ∧ y.monitor.full = false)
    ∧ (let w : State := { y with monitor := { y.monitor with full := true, storeFaults := [⟨1, 1⟩] } }
       w.phase = .running ∧ w.pair.yielding = true ∧ w.monitor.full = true ∧ 1 < w.period) := by decide +kernel

/-- R113, R119, R121: a yield judges the window that was complete, and hands the STORE FAULT after that window's own. -/
theorem test_yield_judges_a_full_window :
    let g : GroupMonitor := { state := .silent, silence := 799 }
    let y : State := { paired .live with
      pair := { role := .live, yielding := true, closedAt := some 1 }
      monitor := { later.monitor with groups := Vector.replicate 3 g, full := true, storeFaults := [⟨1, 1⟩] } }
    y.yieldToShadowAt.bus.queue.map (·.notice)
      = [.fault ⟨1, 1, 1⟩, .fault ⟨2, 1, 1⟩, .fault ⟨3, 1, 1⟩, .fault ⟨1, 3, 1⟩] := by decide +kernel

/-- A table whose station 5 has announced tag 7. -/
def announced : State :=
  { later with peers := { entries := later.peers.entries.set 5 { items := [⟨7, 1, some 0, some 90000, some 96000, false, none, 0⟩] } } }

theorem witness_AnnouncementsUpdateTheEntry :
    later.Hears from5 ∧ announced.Hears from5 ∧ (∃ i ∈ (announced.peer (senderOf from5)).items, i.tag = (7 : BitVec 16).toNat)
    ∧ ∀ i ∈ (later.peer (senderOf from5)).items, i.tag ≠ (7 : BitVec 16).toNat := by
  unfold State.Hears LineState.Reads; decide +kernel

theorem witness_PeerDucksAndFaultsAreKept :
    later.Hears from5 ∧ later.AtRest ∧ 3 < (4 : Byte).toNat ∧ (0 : Byte).toNat = 0 ∧ 3 < (4 : Byte).toNat
    ∧ ((3 : Byte).toNat < 4 ∧ 1 ≤ (1 : Byte).toNat ∧ (3 : Byte).toNat ≤ 3 ∧ later.partner ≠ some (senderOf from5)) := by
  unfold State.Hears LineState.Reads State.AtRest State.NoGrant; decide +kernel

/-- A STATUS of the partner: LIVE, group A in DEAD_AIR. -/
def deadStatus : StatusFields := { later.statusNow with groups := 0xC000 }

theorem witness_PeerStatusUpdatesTheEntry :
    (later.Hears from5 ∧ later.partner ≠ some (senderOf from5) ∧ later.AtRest)
    ∧ ((paired .listen).Hears from1 ∧ (paired .listen).partner = some (senderOf from1) ∧ (paired .listen).pair.role = .listen
      ∧ statusRole later.statusNow = some .live ∧ ∀ a : Fin 3, statusDeadAir later.statusNow a = false)
    ∧ ((paired .shadow).Hears from1 ∧ (paired .shadow).pair.role = .shadow
      ∧ (((paired .shadow).peer 1).faults[(0 : Fin 3).succ]).deadAir = false ∧ statusDeadAir deadStatus 0 = true) := by
  unfold State.Hears LineState.Reads State.AtRest State.NoGrant; decide +kernel

theorem witness_PeerLossEmptiesTheEntry :
    let s := dueNow later (.peerLoss 5)
    let y : State := { dueNow (paired .live) (.peerLoss 1) with pair := { role := .live, yielding := true } }
    (s.phase = .running ∧ s.work = [] ∧ s.intervalDue (.peerLoss 5) = true ∧ s.partner ≠ some 5)
    ∧ ((paired .listen).partner = some 1 ∧ (paired .listen).pair.role = .listen ∧ (paired .live).pair.yielding = false)
    ∧ (y.phase = .running ∧ y.work = [] ∧ y.intervalDue (.peerLoss 1) = true ∧ y.partner = some 1) := by decide +kernel

theorem witness_FramesBeginOnAnIdleLine :
    let s : State := { later with bus := { send := .enabled, line := .idle, queue := [⟨.taken, 3, 0⟩], handed := 4 } }
    (solo.phase = .running ∧ solo.bus.line = .waitIdle ∧ later.bus.line = .idle)
    ∧ (s.bus.send = .enabled ∧ s.bus.line = .idle ∧ s.bus.queue = ⟨.taken, 3, 0⟩ :: [])
    ∧ later.bus.send ≠ .enabled ∧ (sending .taken 0 0).bitErrorAt.bus.line = .flagging
    ∧ (s.intervalDue .listen = false ∧ s.intervalDue .absentWatch = false)
    ∧ (let l := dueNow (paired .listen) .listen
       l.intervalDue .listen = true ∧ l.intervalDue .absentWatch = false ∧ l.pair.role = .listen)
    ∧ (let w := dueNow (paired .shadow) .absentWatch
       w.intervalDue .listen = false ∧ w.intervalDue .absentWatch = true ∧ w.pair.role = .shadow ∧ w.partner = some 1
         ∧ (w.peer 1).presence = .absent)
    ∧ ((sending .taken 0 0).bus.line = .sending ∧ (sending .taken 0 0).bus.flight = some 3
      ∧ (sending .taken 0 0).bus.queue.find? (fun x => x.order == 3) = some ⟨.taken, 3, 0⟩) := by decide +kernel

theorem witness_BitErrorsAreCounted :
    let s := sending .taken 2 14
    let t := sending .taken 3 15
    let w : State := { later with bus := { later.bus with send := .quiet } }
    (s.phase = .running ∧ s.bus.line = .sending ∧ s.bus.flight = some 3
      ∧ s.bus.queue.find? (fun x => x.order == 3) = some ⟨.taken, 3, 2⟩)
    ∧ (s.bitErrorAt.bus.line = .flagging ∧ s.bitErrorAt.bus.flight = some 3 ∧ s.bitErrorAt.bus.errorRun ≠ 16
      ∧ s.bitErrorAt.bus.queue.find? (fun x => x.order == 3) = some ⟨.taken, 3, 3⟩)
    ∧ (sending .taken 2 15).bitErrorAt.bus.errorRun = 16
    ∧ (t.bitErrorAt.bus.line = .flagging ∧ t.bitErrorAt.bus.flight = some 3 ∧ t.bitErrorAt.bus.errorRun = 16
      ∧ t.bitErrorAt.bus.queue.find? (fun x => x.order == 3) = some ⟨.taken, 3, 4⟩ ∧ t.bitErrorAt.bus.queue.length ≤ 8)
    ∧ (let h : State := { (sending (.status later.statusNow) 3 0).bitErrorAt with
        bus := { (sending (.status later.statusNow) 3 0).bitErrorAt.bus with held := some later.statusNow } }
       h.bus.line = .flagging ∧ h.bus.flight = some 3 ∧ h.bus.queue.find? (fun x => x.order == 3)
         = some ⟨.status later.statusNow, 3, 4⟩ ∧ h.bus.held = some later.statusNow)
    ∧ ((dueNow w .quiet).intervalDue .quiet = true ∧ (dueNow w .quiet).bus.send = .quiet)
    ∧ ((dueNow later .startUpListen).intervalDue .startUpListen = true ∧ later.bus.send = .held) := by decide +kernel

/-- R147, R152: a notice handed to a full queue during the error flag does not evict the one with four bit errors, whose drop sets
BUS_ERROR (assumption 23). -/
theorem test_doomed_notice_is_not_evicted :
    let s := (sending (.status later.statusNow) 3 0).bitErrorAt
    let m : State := { s with bus := { s.bus with queue := List.replicate 7 ⟨.taken, 1, 0⟩ ++ s.bus.queue } }
    (m.hand (.fault ⟨1, 1, 1⟩)).endFlag.bus.busError = true ∧ (m.hand (.fault ⟨1, 1, 1⟩)).endFlag.bus.queue.length = 7 := by
  decide +kernel

/-- R147, R148: the notice leaves, BUS_ERROR is set and the bus goes QUIET after the error flag, not in it. -/
theorem test_flag_comes_before_the_drop :
    let m := (sending .taken 3 15).bitErrorAt
    (m.bus.busError = false ∧ m.bus.queue.length = 1 ∧ m.bus.send = .enabled)
    ∧ (m.endFlag.bus.busError = true ∧ m.endFlag.bus.queue = [] ∧ m.endFlag.bus.send = .quiet) := by decide +kernel

theorem witness_CompleteFramesLeaveTheQueue :
    let a : Notice := .asrun (asRunFields (refusedLoad aLoad .full))
    ((sending .taken 0 0).bus.line = .sending ∧ (sending .taken 0 0).bus.held = none ∧ Notice.taken.isAsrun = false)
    ∧ ((sending a 0 0).phase = .running ∧ (sending a 0 0).bus.line = .sending ∧ (sending a 0 0).bus.flight = some 3
      ∧ (sending a 0 0).bus.queue.find? (fun x => x.order == 3) = some ⟨a, 3, 0⟩ ∧ a.isAsrun = true) := by decide +kernel

theorem witness_DiscardedFramesChangeOnlyTheLine :
    later.phase = .running ∧ later.AtRest ∧ later.bus.line.Reads ∧ readFrame (List.replicate 8 false) = .formError
    ∧ readFrame (⟨from5, 17, []⟩ : Frame).bits = .wellFormed ⟨from5, 17, []⟩ ∧ readNotice 17 [] = none
    ∧ (readFrame (⟨⟨0, 0, 0⟩, 17, []⟩ : Frame).bits = .wellFormed ⟨⟨0, 0, 0⟩, 17, []⟩ ∧ senderOf ⟨0, 0, 0⟩ = later.ownStation)
    ∧ (readFrame (Notice.taken.frame 5).bits = .wellFormed (Notice.taken.frame 5)
      ∧ readNotice (Notice.taken.frame 5).kind.toNat (Notice.taken.frame 5).payload = some .taken)
    ∧ senderOf from5 ≠ later.ownStation ∧ (solo.AtRest ∧ solo.bus.line = .waitIdle)
    ∧ ((sending .taken 0 0).AtRest ∧ (sending .taken 0 0).bus.line = .sending) := by
  unfold State.AtRest State.NoGrant LineState.Reads; decide +kernel

/-- An engine with an air-time expiry that is due and is the only one. -/
def airDue (s : State) (h : AirHandle) : State := { s with airExpiries := [⟨h, 0⟩] }

theorem witness_BeaconHandsAStatus :
    let q : Queued := ⟨.status later.statusNow, 3, 0⟩
    let s := dueNow later .beacon
    let full (n : Notice) : State := { s with bus := { s.bus with queue := List.replicate 7 ⟨.taken, 3, 0⟩ ++ [⟨n, 4, 0⟩] } }
    let b : State := { s with breaks := { entries := (s.breaks.entries.set 2 runningEntry).set 5 runningEntry, reportPos := 5 } }
    (s.airExpiries = [] ∧ (airDue s (.rejoin 0)).phase = .running ∧ (airDue s (.rejoin 0)).intervalDue .beacon = true)
    ∧ (s.phase = .running ∧ s.intervalDue .beacon = true ∧ s.bus.queue = [] ∧ ∀ e : EntryNo, (s.entry e).state ≠ .running)
    ∧ ((b.entry 2).state = .running ∧ ∀ u : EntryNo, (b.entry u).state = .running →
      (2 - (b.breaks.reportPos + 1)).val ≤ (u - (b.breaks.reportPos + 1)).val)
    ∧ (({ s with bus := { s.bus with queue := [⟨.taken, 3, 0⟩] } } : State).bus.queue.length < 8)
    ∧ (8 ≤ (full .taken).bus.queue.length ∧ ∀ x ∈ (full .taken).bus.queue, x.notice.isStatus = false)
    ∧ (∀ x ∈ (full (.asrun (asRunFields (refusedLoad aLoad .full)))).bus.queue, x.notice.isStatus = false)
    ∧ ((full (.asrun (asRunFields (refusedLoad aLoad .full)))).bus.queue.filter fun q => s.bus.flight != some q.order).getLast?
        = some ⟨.asrun (asRunFields (refusedLoad aLoad .full)), 4, 0⟩
    ∧ (({ s with bus := { s.bus with queue := [q] } } : State).bus.queue.find? (·.notice.isStatus) = some q
      ∧ s.bus.flight ≠ some q.order)
    ∧ (sending (.status later.statusNow) 0 0).bus.flight = some q.order := by decide +kernel

/-- R139: a RUNNING entry whose rejoin time tests due is ENDED before the STATUS is formed, and is not reported. -/
theorem test_beacon_reports_no_due_entry :
    let s : State := { airDue (dueNow later .beacon) (.rejoin 0) with
      breaks := { later.breaks with entries := later.breaks.entries.set 0 { runningEntry with rejoin := 0 } } }
    s.statusNow.report.isSome = true ∧ (s.statusBeaconAt.bus.queue.map fun q => match q.notice with
      | .status f => f.report.isNone
      | _ => false) = [true] := by decide +kernel

theorem witness_DueExpiriesStartArmedRecords :
    (airDue (armed .go) (.latestStart 7)).Ready 7 goRecord 0 anItem
    ∧ (airDue (armed .go) (.latestStart 7)).delivered (.latestStart 7) = [⟨.latestStart 7, 0⟩]
    ∧ (airDue (armed .afterPeer) (.scheduledStart 7)).delivered (.scheduledStart 7) = [⟨.scheduledStart 7, 0⟩]
    ∧ (airDue (armed .softAt) (.startTime 7)).Ready 7 { goRecord with kind := .softAt } 0 anItem
    ∧ (airDue (armed .softAt) (.startTime 7)).delivered (.startTime 7) = [⟨.startTime 7, 0⟩]
    ∧ (airDue (armed .softAt) (.startTime 7)).predecessor 7 1 = none :=
  ⟨⟨rfl, rfl, rfl, by decide, rfl, rfl⟩, by decide +kernel, by decide +kernel, ⟨rfl, rfl, rfl, by decide, rfl, rfl⟩,
    by decide +kernel, by decide +kernel⟩

theorem witness_HardStartsOvertake :
    let u : CueRecord := { goRecord with tag := 6, state := .queued, deck := none }
    let r : CueRecord := { goRecord with kind := .hardAt }
    let s : State := { airDue (armed .hardAt) (.startTime 7) with records := [u, r] }
    s.phase = .running ∧ s.isLive = true ∧ s.find 7 = some r ∧ r.unstarted = true ∧ r.displaced = false
    ∧ s.delivered (.startTime 7) = [⟨.startTime 7, 0⟩] ∧ u ∈ s.records.takeWhile (fun u => u.tag != 7) ∧ u.unstarted = true
    ∧ u.group = r.group ∧ u.tag < 65280 ∧ s.OrderOk ∧ s.log.records.length + 2 * s.records.length ≤ 32
    ∧ ∀ d : DeckNo, (s.deck d).bound = some u.tag → (s.deck d).sounding = false := by
  unfold State.OrderOk; decide +kernel

/-- The displacement fades of the same statement: a record on air with a HARD_AT record waiting behind it. -/
theorem witness_HardStartsDisplace :
    let u : CueRecord := { goRecord with tag := 6, state := .onAir, actualStart := some 0 }
    let r : CueRecord := { goRecord with kind := .hardAt, state := .queued, deck := none, displace := 4800 }
    let s : State := { airDue (onAir fun x => { x with bound := some 6 }) (.startTime 7) with records := [u, r] }
    s.phase = .running ∧ s.isLive = true ∧ s.find 7 = some r ∧ r.unstarted = true ∧ r.displaced = false
    ∧ s.delivered (.startTime 7) = [⟨.startTime 7, 0⟩] ∧ s.OrderOk ∧ u ∈ s.records ∧ u.sounding = true ∧ u.group = r.group
    ∧ u.deck = some 0 ∧ 0 < r.displace ∧ (s.deck 0).state = .playing ∧ (s.deck 0).fadeIn = none ∧ (s.deck 0).fadeOut = none
    ∧ (s.deck 0).bound = some u.tag ∧ (∀ v ∈ s.records, v.deck = some 0 → v = u)
    ∧ (∀ e : DeckNo, (s.deck e).bound = some u.tag → e = 0)
    ∧ ((s.displaceAndOvertake r).deck 0).fadeOut = some ⟨0, 4800, .log, ⟨.faded, .displaced⟩⟩ := by
  unfold State.OrderOk; decide +kernel

theorem witness_BreakExpiriesActInTurn :
    let b (h : AirHandle) : State := { airDue (onAir id) h with
      records := [fillOnAir]
      breaks := { later.breaks with entries := later.breaks.entries.set 0 { runningEntry with fillFade := some ⟨480, 0, false⟩ } } }
    let f := b (.fillFade 0)
    ((b (.rejoin 0)).phase = .running ∧ (b (.rejoin 0)).OrderOk ∧ (b (.rejoin 0)).delivered (.rejoin 0) = [⟨.rejoin 0, 0⟩]
      ∧ ((b (.rejoin 0)).entry 0).state = .running)
    ∧ (let c := (b (.rejoin 0)).modDeck 0 fun x => { x with bound := some fillOnAir.tag }
       c.OrderOk ∧ fillOnAir ∈ c.records ∧ fillOnAir.sounding = true ∧ (c.entry 0).isFill fillOnAir = true
         ∧ (c.deck 0).state = .playing ∧ (c.deck 0).fadeIn = none ∧ (c.deck 0).fadeOut = none
         ∧ (c.deck 0).bound = some fillOnAir.tag ∧ (∀ v ∈ c.records, v.deck = some 0 → v = fillOnAir)
         ∧ (∀ e : DeckNo, (c.deck e).bound = some fillOnAir.tag → e = 0)
         ∧ isDue (addAir (c.entry 0).rejoin 480) c.now = false)
    ∧ ((b (.idHold 0)).AtRest ∧ (b (.idHold 0)).delivered (.idHold 0) = [⟨.idHold 0, 0⟩] ∧ later.AtRest ∧ later.airExpiries = [])
    ∧ (f.delivered (.fillFade 0) = [⟨.fillFade 0, 0⟩] ∧ (f.entry 0).fillFade = some ⟨480, 0, false⟩
      ∧ f.fillRecord (f.entry 0) = some fillOnAir ∧ fillOnAir.deck = some 0 ∧ (f.deck 0).state = .playing
      ∧ (f.deck 0).fadeIn = none ∧ lateness 0 f.now < 480) := by
  unfold State.OrderOk State.AtRest State.NoGrant; decide +kernel

theorem witness_SegueMarkIsReachedOnce :
    let s := onAir fun x => { x with p := 90000 }
    let t := onAir fun x => { x with p := 90000, segued := true }
    (s.phase = .running ∧ (s.deck 0).sounding = true ∧ (s.deck 0).bound = some 7 ∧ (s.deck 0).item = some anItem
      ∧ (s.deck 0).actualStart = some 0 ∧ anItem.segue ≤ (s.deck 0).p ∧ (s.deck 0).segued = false
      ∧ (s.deck 0).fadeMarkDue = false ∧ (s.deck 0).truncDue = false)
    ∧ ((t.deck 0).segued = true ∧ t.AtRest ∧ anItem.segue ≤ (t.deck 0).p) := by
  unfold State.AtRest State.NoGrant; decide +kernel

theorem witness_FadeMarksBeginFades :
    let s := onAir fun x => { x with p := 91200 }
    let t := onAir fun x => { x with p := 5000, trunc := some ⟨5000, 4800⟩ }
    (s.phase = .running ∧ (s.deck 0).state = .playing ∧ (s.deck 0).fadeIn = none ∧ (s.deck 0).item = some anItem
      ∧ anItem.fadeMark = some 91200 ∧ 91200 ≤ (s.deck 0).p ∧ 91200 < (s.deck 0).endPos ∧ (s.deck 0).fadeMarkDone = false
      ∧ (s.deck 0).p - 91200 < anItem.fadeLen)
    ∧ ((t.deck 0).state = .playing ∧ (t.deck 0).trunc = some ⟨5000, 4800⟩ ∧ 5000 ≤ (t.deck 0).p ∧ (t.deck 0).p - 5000 < 4800)
    ∧ (let z := onAir fun x => { x with p := 5000, endPos := 5000, trunc := some ⟨5000, 0⟩ }
       (z.deck 0).trunc = some ⟨5000, 0⟩ ∧ 0 ≤ (z.deck 0).p - 5000) := by
  decide +kernel

theorem witness_FadeRequestsCompareByTheirEnds :
    let s := onAir fun x => { x with fadeIn := some ⟨100, 480⟩ }
    let t := onAir fun x => { x with state := .fading, fadeOut := some ⟨100, 480, .log, ⟨.faded, .byLoader⟩⟩ }
    ((s.deck 0).state = .playing ∧ (s.deck 0).fadeIn = some ⟨100, 480⟩)
    ∧ ((t.deck 0).state = .fading ∧ (t.deck 0).fadeOut = some ⟨100, 480, .log, ⟨.faded, .byLoader⟩⟩)
    ∧ ((240 : Int) - max ((2 * (100 * 240) + 480) / (2 * 480)) 0 < 480 - 100)
    ∧ ((480 : Int) - 100 ≤ (960 : Int) - max ((2 * (100 * 960) + 480) / (2 * 480)) 0) := by decide +kernel

theorem witness_FadeInEndsAndBlocksAreEntered :
    let s := onAir fun x => { x with fadeIn := some ⟨480, 480⟩ }
    let t := onAir fun x => { x with p := 1024 }
    (s.phase = .running ∧ (s.deck 0).fadeIn = some ⟨480, 480⟩)
    ∧ ((t.deck 0).sounding = true ∧ (t.deck 0).p < (t.deck 0).endPos ∧ (t.deck 0).playBlock ≠ (t.deck 0).p / 1024) := by
  decide +kernel

theorem witness_ItemEndReleasesTheDeck :
    let s := onAir fun x => { x with p := 96000, segued := true, fadeMarkDone := true }
    let r : CueRecord := { goRecord with state := .onAir, actualStart := some 0 }
    s.phase = .running ∧ (s.deck 0).endDue = true ∧ (s.deck 0).bound = some 7 ∧ (s.deck 0).item = some anItem
    ∧ (s.deck 0).fadeMarkDue = false ∧ (s.deck 0).truncDue = false ∧ (s.deck 0).segueDue = false
    ∧ s.find 7 = some r ∧ r.deck = some 0 ∧ r.sounding = true ∧ s.log.records.length < 32 := by decide +kernel

/-- R41, R57, R80: a follower without a deck is marked by the end of its predecessor, and binds the deck that this frees with
LATE_START. -/
theorem test_follower_starts_late_on_the_freed_deck :
    let busy (tag : Nat) : Deck := { playingDeck with bound := some tag, item := some { anItem with group := 2 } }
    let on (tag : Nat) (d : DeckNo) : CueRecord :=
      { goRecord with tag := tag, group := 2, state := .onAir, actualStart := some 0, deck := some d }
    let s := onAir fun x => { x with p := 96000, segued := true, fadeMarkDone := true }
    let s : State := { s with
      records := s.records ++ [on 21 1, on 22 2, on 23 3, { goRecord with tag := 8, kind := .followPrev, state := .queued, deck := none }]
      decks := ⟨#[s.deck 0, busy 21, busy 22, busy 23], rfl⟩ }
    ((s.itemEndAt 0).finish.find 8).any (fun r => r.state == .onAir && r.flags.lateStart && !r.flags.coldStart) = true := by
  decide +kernel

/-- R58: what is still to be done for a record goes with it. -/
theorem test_departure_discards_its_reactions :
    let s : State := { armed .go with work := [.trigger 7, .start 7 none false true, .trigger 8] }
    (s.removeRecord 7 ⟨.dropped, .byLoader⟩ false).work = [.trigger 8] := by decide +kernel

theorem witness_SilentItemsAreSkipped :
    let s : State := { (onAir id).setTimer 0 48000 with cfg := { later.cfg with skipSilent := 1 } }
    s.phase = .running ∧ s.isLive = true ∧ s.cfg.skipSilent ≠ 0 ∧ s.cfg.skipSilent * 48000 ≤ s.monitor.timers[(0 : DeckNo)]
    ∧ (s.deck 0).state = .playing ∧ (s.deck 0).fadeIn = none ∧ (s.deck 0).bound = some 7 ∧ (s.deck 0).item = some anItem
    ∧ (later.AtRest ∧ (later.deck 0).state ≠ .playing) ∧ (paired .shadow).isLive = false := by
  unfold State.AtRest State.NoGrant; decide +kernel

end Sys2Proof.Tests
end

section
/-! The time reference input (R4, R5): what a pulse and a rejected event leave behind. -/

namespace Sys2Proof.Machine

variable {s : State}

/-! ### A state stays at rest when only the Timebase's part changes -/

theorem State.AtRest.withClock (h : s.AtRest) (c : Clock) : ({ s with clock := c } : State).AtRest := h

theorem State.AtRest.cancelInterval (h : s.AtRest) (i : IntervalHandle) : (s.cancelInterval i).AtRest := h

/-- Closing the window acts on the Timebase alone. -/
theorem State.AtRest.closeWindow (h : s.AtRest) : s.closeWindow.AtRest :=
  (h.withClock _).cancelInterval _

/-! ### Pulses, labels and the window's expiry, case by case -/

/-- Rejecting the earlier pulse leaves the air time and day number that the new pulse latches (R4, R5). -/
theorem State.timePulseAt_eq (s : State) : s.timePulseAt =
    ({ s with clock := { s.clock with
      pulse := some ⟨s.clock.airTime, s.clock.day⟩
      rejected := if s.clock.pulse.isSome then min 255 (s.clock.rejected + 1) else s.clock.rejected } } : State).setInterval
      .labelWindow 4800 := by
  cases h : s.clock.pulse <;> simp [State.timePulseAt, Clock.latch, Clock.reject, h]

/-- A label with no window open is counted and changes nothing else (R5). -/
theorem State.timeLabelAt_no_pulse (h : s.clock.pulse = none) (day : BitVec 16) (second : Nat) :
    s.timeLabelAt day second = { s with clock := s.clock.reject } := by
  simp only [State.timeLabelAt, h]

/-- A label out of range is counted and closes the window (R5). -/
theorem State.timeLabelAt_out_of_range (h : s.clock.pulse.isSome = true) (day : BitVec 16) {second : Nat} (k : 86399 < second) :
    s.timeLabelAt day second = ({ s with clock := s.clock.reject } : State).closeWindow := by
  obtain ⟨p, hp⟩ := Option.isSome_iff_exists.mp h
  simp only [State.timeLabelAt, hp, if_pos k]

/-- A window that expires with a pulse waiting has the pulse counted (R5). -/
theorem State.windowExpired_pulse (h : s.clock.pulse.isSome = true) :
    s.windowExpired = ({ s with clock := s.clock.reject } : State).closeWindow := by
  simp only [State.windowExpired, if_pos h]

/-! ### The commands -/

theorem exec_timeLabel_no_pulse (h : s.phase = .running) (hr : s.AtRest) (hp : s.clock.pulse = none) (day : BitVec 16) (second : Nat) :
    exec (.timeLabel day second) s = .next { s with clock := s.clock.reject } := by
  rw [exec_timeLabel h, State.timeLabelAt_no_pulse hp, State.finish_atRest (hr.withClock _)]

theorem exec_timeLabel_out_of_range (h : s.phase = .running) (hr : s.AtRest) (hp : s.clock.pulse.isSome = true) (day : BitVec 16)
    {second : Nat} (k : 86399 < second) :
    exec (.timeLabel day second) s = .next ({ s with clock := s.clock.reject } : State).closeWindow := by
  rw [exec_timeLabel h, State.timeLabelAt_out_of_range hp day k, State.finish_atRest (hr.withClock _).closeWindow]

theorem exec_labelWindowExpiry_pulse (h : s.phase = .running) (hd : s.intervalDue .labelWindow = true)
    (hp : s.clock.pulse.isSome = true) :
    exec .labelWindowExpiry s = .next ({ s with clock := s.clock.reject } : State).closeWindow := by
  rw [exec_labelWindowExpiry h, if_pos hd, State.windowExpired_pulse hp]

/-- R197: the count starts again at 0, whatever the straps and the state. -/
theorem exec_coldReset_rejected (straps : BitVec 4) (s : State) :
    ∃ t, exec (.coldReset straps) s = .next t ∧ t.clock.rejected = 0 := ⟨_, rfl, rfl⟩

/-- Settles O19: each case of R5 by the equation of its command, and the readings of the count at cold reset and in STATUS. -/
theorem pulsesLatchAndRejectedLabelsAreCounted : Obligations.PulsesLatchAndRejectedLabelsAreCounted := by
  refine ⟨fun s h => ?pulse, fun s h => ⟨?noWindow, ?outOfRange, ?expiry⟩, fun s => ⟨?coldReset, ?status⟩⟩
  case pulse => rw [exec_timePulse h, State.timePulseAt_eq]
  case noWindow => exact fun day second hr hp => exec_timeLabel_no_pulse h hr hp day second
  case outOfRange => exact fun day second hr hp k => exec_timeLabel_out_of_range h hr hp day k
  case expiry => exact fun hd hp => exec_labelWindowExpiry_pulse h hd hp
  case coldReset => exact fun straps => exec_coldReset_rejected straps s
  case status => rfl

end Sys2Proof.Machine
end

section
/-! The greatest of the depths asked for: what the duck target is made of (R100, R101). -/

namespace Sys2Proof.Machine

variable {s : State}

/-! ### The greatest value over a list -/

/-- The value that a fold of `max` starts from, and every value it meets, lie at or below what it ends with. -/
theorem le_foldl_max {α : Type} (f : α → Nat) (l : List α) (b : Nat) :
    b ≤ l.foldl (fun a x => max a (f x)) b ∧ ∀ x ∈ l, f x ≤ l.foldl (fun a x => max a (f x)) b := by
  induction l generalizing b with
  | nil => simp
  | cons y l ih =>
    obtain ⟨hb, hl⟩ := ih (max b (f y))
    exact ⟨(Nat.le_max_left _ _).trans hb, List.forall_mem_cons.mpr ⟨(Nat.le_max_right _ _).trans hb, hl⟩⟩

/-- A fold of `max` ends with the value it starts from or with one that it meets. -/
theorem foldl_max_attained {α : Type} (f : α → Nat) (l : List α) (b : Nat) :
    l.foldl (fun a x => max a (f x)) b = b ∨ ∃ x ∈ l, l.foldl (fun a x => max a (f x)) b = f x := by
  induction l generalizing b with
  | nil => exact .inl rfl
  | cons y l ih =>
    rcases ih (max b (f y)) with h | ⟨x, hx, h⟩
    · rcases max_choice b (f y) with k | k
      · exact .inl (h.trans k)
      · exact .inr ⟨y, List.mem_cons_self, h.trans k⟩
    · exact .inr ⟨x, List.mem_cons_of_mem y hx, h⟩

/-! ### One request -/

theorem DuckRequest.depthIn_same {m : Nat} {q : DuckRequest} (h : q.domain = m) : q.depthIn m = min 300 q.depth := if_pos h

theorem DuckRequest.depthIn_other {m : Nat} {q : DuckRequest} (h : q.domain ≠ m) : q.depthIn m = 0 := if_neg h

/-- A request asks in a domain for its depth, or for nothing. -/
theorem DuckRequest.depthIn_cases (m : Nat) (q : DuckRequest) :
    q.depthIn m = 0 ∨ q.domain = m ∧ q.depthIn m = min 300 q.depth := by
  by_cases h : q.domain = m
  · exact .inr ⟨h, q.depthIn_same h⟩
  · exact .inl (q.depthIn_other h)

/-! ### A station's requests -/

theorem Peer.depthIn_le_duckIn {p : Peer} {q : DuckRequest} (m : Nat) {skip : DuckRequest → Bool} (hq : q ∈ p.ducks)
    (h : skip q = false) : q.depthIn m ≤ p.duckIn m skip :=
  (le_foldl_max _ _ 0).2 q (List.mem_filter.mpr ⟨hq, by rw [h]; rfl⟩)

theorem Peer.duckIn_attained (p : Peer) (m : Nat) (skip : DuckRequest → Bool) :
    p.duckIn m skip = 0 ∨ ∃ q ∈ p.ducks, skip q = false ∧ p.duckIn m skip = q.depthIn m := by
  rcases foldl_max_attained (DuckRequest.depthIn m) (p.ducks.filter fun q => !skip q) 0 with h | ⟨q, hq, h⟩
  · exact .inl h
  · obtain ⟨hmem, hskip⟩ := List.mem_filter.mp hq
    exact .inr ⟨q, hmem, by simpa using hskip, h⟩

/-! ### Local requests and peer requests -/

/-- The depth that a deck's own request asks for in a domain, 0 without a request. -/
def State.requestDepth (s : State) (m : Nat) (e : DeckNo) : Nat := (s.mix.requests[e]).elim 0 (DuckRequest.depthIn m)

theorem State.localDuck_eq (s : State) (d : DeckNo) (m : Nat) :
    s.localDuck d m = (allDecks.filter fun e => e != d).foldl (fun a e => max a (s.requestDepth m e)) 0 := by
  unfold State.localDuck
  congr
  funext a e
  unfold State.requestDepth
  cases s.mix.requests[e] <;> rfl

theorem State.requestDepth_some {e : DeckNo} {q : DuckRequest} (m : Nat) (h : s.mix.requests[e] = some q) :
    s.requestDepth m e = q.depthIn m := by
  rw [State.requestDepth, h, Option.elim_some]

theorem State.requestDepth_none {e : DeckNo} (m : Nat) (h : s.mix.requests[e] = none) : s.requestDepth m e = 0 := by
  rw [State.requestDepth, h, Option.elim_none]

theorem mem_allDecks (d : DeckNo) : d ∈ allDecks := by revert d; decide

theorem mem_allStations (p : Station) : p ∈ allStations := by revert p; decide

theorem State.depthIn_le_localDuck {d e : DeckNo} {q : DuckRequest} (m : Nat) (he : e ≠ d)
    (hq : s.mix.requests[e] = some q) : q.depthIn m ≤ s.localDuck d m := by
  rw [← State.requestDepth_some m hq, State.localDuck_eq]
  exact (le_foldl_max _ _ 0).2 e (List.mem_filter.mpr ⟨mem_allDecks e, bne_iff_ne.mpr he⟩)

/-- Local requests ask together for nothing, or for what one of them asks for, made by another deck in the domain (R101). -/
theorem State.localDuck_attained (s : State) (d : DeckNo) (m : Nat) :
    s.localDuck d m = 0
      ∨ ∃ e : DeckNo, e ≠ d ∧ ∃ q, s.mix.requests[e] = some q ∧ q.domain = m ∧ s.localDuck d m = min 300 q.depth := by
  rw [State.localDuck_eq]
  rcases foldl_max_attained (s.requestDepth m) (allDecks.filter fun e => e != d) 0 with h | ⟨e, he, h⟩
  · exact .inl h
  · have hne : e ≠ d := bne_iff_ne.mp (List.mem_filter.mp he).2
    cases hq : s.mix.requests[e] with
    | none => exact .inl (h.trans (State.requestDepth_none m hq))
    | some q =>
      rw [State.requestDepth_some m hq] at h
      rcases q.depthIn_cases m with hz | ⟨hm, hd⟩
      · exact .inl (h.trans hz)
      · exact .inr ⟨e, hne, q, hq, hm, h.trans hd⟩

/-- The request of a station that R101 leaves out for a deck: the partner's, with the tag that the deck holds. -/
def State.leavesOut (s : State) (tag : Option Nat) (p : Station) (q : DuckRequest) : Bool :=
  s.partner == some p && tag == some q.tag

theorem State.leavesOut_eq_false {tag : Option Nat} {p : Station} {q : DuckRequest} :
    s.leavesOut tag p q = false ↔ ¬ (s.partner = some p ∧ tag = some q.tag) := by
  simp [State.leavesOut]

theorem State.peerDuck_eq (s : State) (m : Nat) (tag : Option Nat) :
    s.peerDuck m tag = allStations.foldl (fun a p => max a ((s.peer p).duckIn m (s.leavesOut tag p))) 0 := rfl

theorem State.depthIn_le_peerDuck {p : Station} {q : DuckRequest} {tag : Option Nat} (m : Nat) (hq : q ∈ (s.peer p).ducks)
    (h : ¬ (s.partner = some p ∧ tag = some q.tag)) : q.depthIn m ≤ s.peerDuck m tag :=
  calc q.depthIn m ≤ (s.peer p).duckIn m (s.leavesOut tag p) := Peer.depthIn_le_duckIn m hq (State.leavesOut_eq_false.mpr h)
    _ ≤ s.peerDuck m tag :=
      (le_foldl_max (fun p => (s.peer p).duckIn m (s.leavesOut tag p)) allStations 0).2 p (mem_allStations p)

/-- Peer requests ask together for nothing, or for what one of them asks for, in the domain and not left out (R101). -/
theorem State.peerDuck_attained (s : State) (m : Nat) (tag : Option Nat) :
    s.peerDuck m tag = 0
      ∨ ∃ p : Station, ∃ q ∈ (s.peer p).ducks, q.domain = m ∧ ¬ (s.partner = some p ∧ tag = some q.tag)
        ∧ s.peerDuck m tag = min 300 q.depth := by
  rw [State.peerDuck_eq]
  rcases foldl_max_attained (fun p => (s.peer p).duckIn m (s.leavesOut tag p)) allStations 0 with h | ⟨p, -, h⟩
  · exact .inl h
  · rcases (s.peer p).duckIn_attained m (s.leavesOut tag p) with hz | ⟨q, hq, hout, hd⟩
    · exact .inl (h.trans hz)
    · rcases q.depthIn_cases m with hz | ⟨hm, hq300⟩
      · exact .inl (h.trans (hd.trans hz))
      · exact .inr ⟨p, q, hq, hm, State.leavesOut_eq_false.mp hout, h.trans (hd.trans hq300)⟩

/-! ### The target -/

theorem State.duckTarget_zero {d : DeckNo} {it : Item} (h : it.cls = .advert ∨ s.domain it.group = 0) : s.duckTarget d it = 0 :=
  if_pos h

theorem State.duckTarget_eq_max {d : DeckNo} {it : Item} (h : it.cls ≠ .advert) (k : s.domain it.group ≠ 0) :
    s.duckTarget d it = max (s.localDuck d (s.domain it.group)) (s.peerDuck (s.domain it.group) (s.deck d).bound) :=
  if_neg (not_or.mpr ⟨h, k⟩)

/-- Settles O17: outside the cases of target 0 the target is the larger of the local and the peer depth, each of which bounds its
requests and is 0 or the depth of one of them. -/
theorem duckTargetIsAGreatestDepth : Obligations.DuckTargetIsAGreatestDepth := by
  refine fun s d it => ⟨State.duckTarget_zero, fun hcls hdom => ?_⟩
  rw [State.duckTarget_eq_max hcls hdom]
  refine ⟨fun e he q hq hm => ?locals, fun p q hq hm hout => ?peers, ?attained⟩
  case locals =>
    rw [← DuckRequest.depthIn_same hm]
    exact (State.depthIn_le_localDuck _ he hq).trans (Nat.le_max_left _ _)
  case peers =>
    rw [← DuckRequest.depthIn_same hm]
    exact (State.depthIn_le_peerDuck _ hq hout).trans (Nat.le_max_right _ _)
  case attained =>
    rcases max_choice (s.localDuck d (s.domain it.group)) (s.peerDuck (s.domain it.group) (s.deck d).bound) with h | h
    · rw [h]
      exact (s.localDuck_attained d _).imp_right .inl
    · rw [h]
      exact (s.peerDuck_attained _ _).imp_right .inr

end Sys2Proof.Machine
end

section
/-! LEVEL and CLEAR_FAULTS: what they set and what they leave (R86, R113, R120, R158). -/

namespace Sys2Proof.Machine

variable {s : State}

/-! ### Hearing a frame leaves levels and decks -/

@[simp] theorem State.onHearing_mix (s : State) (h : Header) : (s.onHearing h).mix = s.mix := by
  simp only [State.onHearing, State.presence, State.toWaitIdle, State.setInterval_mix, State.modPeer_mix, State.modBus_mix]

@[simp] theorem State.onHearing_decks (s : State) (h : Header) : (s.onHearing h).decks = s.decks := by
  simp only [State.onHearing, State.presence, State.toWaitIdle, State.setInterval_decks, State.modPeer_decks,
    State.modBus_decks]

@[simp] theorem State.deck_onHearing (s : State) (h : Header) (d : DeckNo) : (s.onHearing h).deck d = s.deck d := by
  rw [State.deck, State.onHearing_decks, State.deck]

/-! ### The level a field gives -/

theorem readLevel_eq (l : BitVec 16) :
    readLevel l = if l.toInt = -32768 then .off else .tenths (max (-900) (min 0 l.toInt)) := by
  have hs : signed16 l.toNat = l.toInt := by
    rw [signed16, BitVec.toInt_eq_toNat_cond]
    split <;> split <;> omega
  have hoff : l.toNat = 32768 ↔ l.toInt = -32768 := by
    rw [BitVec.toInt_eq_toNat_cond]
    split <;> omega
  simp only [readLevel, levelOfField, clampInt, hs, hoff]

/-! ### The level that a group field names -/

theorem Mix.setLevel_group (m : Mix) {g : Nat} (h : g < 4) (l : Level) :
    m.setLevel g l = { m with levels := m.levels.set g l } := dif_pos h

theorem Mix.setLevel_master (m : Mix) (l : Level) : m.setLevel 7 l = { m with master := l } := rfl

theorem Mix.setLevel_none (m : Mix) {g : Nat} (h : 4 ≤ g) (k : g ≠ 7) (l : Level) : m.setLevel g l = m := by
  rw [Mix.setLevel, dif_neg (by omega), if_neg k]

theorem exec_level_taken {h : Header} (k : s.Takes h) (f : LevelFields) :
    exec (.level h f) s = .next { s.onHearing h with mix := s.mix.setLevel f.group.toNat (readLevel f.level) } := by
  rw [exec_level k.running, State.hearLevel, k.heard, State.setLevel, State.onHearing_mix]

/-! ### Handing a notice leaves the decks -/

@[simp] theorem State.judgeOffer_decks (s : State) : s.judgeOffer.decks = s.decks := by
  unfold State.judgeOffer
  split
  · split <;> rfl
  · rfl

@[simp] theorem State.hand_decks (s : State) (n : Notice) : (s.hand n).decks = s.decks := by
  unfold State.hand
  split
  split
  · exact State.judgeOffer_decks _
  · rfl

@[simp] theorem State.handLive_decks (s : State) (n : Notice) : (s.handLive n).decks = s.decks := by
  unfold State.handLive
  split
  · exact s.hand_decks n
  · rfl

/-- A fold of operations that each leave the decks leaves the decks. -/
theorem State.foldl_decks {α : Type} (f : State → α → State) (h : ∀ (s : State) (a : α), (f s a).decks = s.decks) (l : List α)
    (s : State) : (l.foldl f s).decks = s.decks :=
  List.foldlRecOn l f (motive := fun t => t.decks = s.decks) rfl fun t ht a _ => (h t a).trans ht

/-! ### The judgement of a window leaves the decks -/

@[simp] theorem State.releaseStoreFaults_decks (s : State) (p : Nat → Bool) : (s.releaseStoreFaults p).decks = s.decks :=
  State.foldl_decks _ (fun s _ => s.handLive_decks _) _ _

@[simp] theorem State.handFault_decks (s : State) (group kind : Nat) (b : Option Bool) :
    (s.handFault group kind b).decks = s.decks := by
  cases b with
  | none => rfl
  | some b => exact s.handLive_decks _

theorem State.judgeGroup_decks (s : State) (a : Fin 3) : (s.judgeGroup a).decks = s.decks := by
  unfold State.judgeGroup
  dsimp only
  split <;> simp

@[simp] theorem State.monitorWindowAt_decks (s : State) : s.monitorWindowAt.decks = s.decks := by
  unfold State.monitorWindowAt
  split
  · simp [State.foldl_decks _ State.judgeGroup_decks]
  · rfl

theorem State.deck_monitorWindowAt (s : State) (d : DeckNo) : s.monitorWindowAt.deck d = s.deck d := by
  rw [State.deck, State.monitorWindowAt_decks, State.deck]

/-! ### The flags cleared -/

theorem State.modGroups_groups (s : State) (f : GroupMonitor → GroupMonitor) (a : Fin 3) :
    (s.modGroups f).monitor.groups[a] = f s.monitor.groups[a] := by
  revert a
  simp [State.modGroups, Fin.forall_fin_succ]

/-- The STORE flags are all that is cleared at the decks (R120). -/
theorem State.deck_clearStoreFlags (s : State) (d : DeckNo) :
    s.clearStoreFlags.deck d = { s.deck d with storeFlag := false } := by
  fin_cases d <;> simp [State.clearStoreFlags, allDecks, State.modDeck, State.deck_setDeck]

theorem State.clearStoreFlags_eq (s : State) : s.clearStoreFlags = { s with decks := s.clearStoreFlags.decks } := by
  unfold State.clearStoreFlags
  refine List.foldlRecOn allDecks _ (motive := fun t : State => t = { s with decks := t.decks }) rfl fun t ht d _ => ?_
  rw [ht]
  rfl

theorem State.clearStoreFlags_monitor (s : State) : s.clearStoreFlags.monitor = s.monitor := by
  rw [s.clearStoreFlags_eq]

theorem State.clearLatched_groups (s : State) (a : Fin 3) :
    s.clearLatched.monitor.groups[a] = { s.monitor.groups[a] with deadAirFlag := false, overloadFlag := false } := by
  rw [State.clearLatched, State.clearStoreFlags_monitor, State.modGroups_groups]

theorem State.deck_clearLatched (s : State) (d : DeckNo) :
    s.clearLatched.deck d = { s.deck d with storeFlag := false } := by
  rw [State.clearLatched, State.deck_clearStoreFlags]
  rfl

theorem State.clearLatched_eq (s : State) : s.clearLatched =
    { s with monitor := { s.monitor with groups := s.clearLatched.monitor.groups }, decks := s.clearLatched.decks } := by
  unfold State.clearLatched
  rw [State.clearStoreFlags_eq]
  rfl

@[simp] theorem State.clearBusFlags_bus (s : State) : s.clearBusFlags.bus =
    { s.bus with foreign := false, busError := false, txDiscard := false, duplicate := false } := rfl

@[simp] theorem State.clearBusFlags_monitor (s : State) : s.clearBusFlags.monitor = s.monitor := rfl

@[simp] theorem State.deck_clearBusFlags (s : State) (d : DeckNo) : s.clearBusFlags.deck d = s.deck d := rfl

theorem exec_clearFaults_taken {h : Header} (k : s.Takes h) :
    exec (.clearFaults h) s = .next (s.onHearing h).monitorWindowAt.clearLatched.clearBusFlags := by
  rw [exec_clearFaults k.running, State.hearClearFaults, k.heard]

/-- Settles O34: LEVEL by the three readings of its group field, CLEAR_FAULTS by what its two clearings leave of the state in
which a complete window has been judged. -/
theorem levelAndClearFaultsActAlone : Obligations.LevelAndClearFaultsActAlone := by
  refine ⟨fun s h f k => ?level, fun s h k => ⟨_, exec_clearFaults_taken k, ?window, ?bus, ?groups, ?decks, ?rest⟩⟩
  case level =>
    rw [← readLevel_eq, exec_level_taken k f]
    refine ⟨fun hg => ?group, fun hg => ?master, fun hg hm => ?none⟩
    case group => rw [Mix.setLevel_group _ hg]
    case master => rw [hg, Mix.setLevel_master]
    case none =>
      rw [Mix.setLevel_none _ hg hm, ← State.onHearing_mix s h]
  case window => exact fun hf => State.monitorWindowAt_eq_self hf
  case bus => rw [State.clearBusFlags_bus, State.clearLatched_eq]
  case groups =>
    intro a
    rw [State.clearBusFlags_monitor, State.clearLatched_groups]
  case decks =>
    intro d
    rw [State.deck_clearBusFlags, State.deck_clearLatched, State.deck_monitorWindowAt, State.deck_onHearing]
  case rest =>
    rw [State.clearLatched_eq]
    rfl

end Sys2Proof.Machine
end

section
/-! The partner's TAKEN: which engine keeps the air, which yields, and when the TAKEN window closes (R109, R167, R178, R185, R187,
R188). -/

namespace Sys2Proof.Machine

variable {s : State}

/-! ### Interval expiries set and cancelled (R14) -/

theorem State.hasInterval_cancelInterval_same (s : State) (i : IntervalHandle) : (s.cancelInterval i).hasInterval i = false := by
  simp [State.hasInterval, State.cancelInterval]

theorem State.hasInterval_cancelInterval_ne {i j : IntervalHandle} (h : i ≠ j) (s : State) :
    (s.cancelInterval j).hasInterval i = s.hasInterval i := by
  have hne (x : IntervalExpiry) (hx : x.handle = i) : x.handle ≠ j := hx ▸ h
  rw [Bool.eq_iff_iff]
  simp only [State.hasInterval, State.cancelInterval, List.any_filter, List.any_eq_true, Bool.and_eq_true, bne_iff_ne, beq_iff_eq]
  exact ⟨fun ⟨x, hx, _, hi⟩ => ⟨x, hx, hi⟩, fun ⟨x, hx, hi⟩ => ⟨x, hx, hne x hi, hi⟩⟩

theorem State.hasInterval_setInterval_ne {i j : IntervalHandle} (h : i ≠ j) (s : State) (n : Nat) :
    (s.setInterval j n).hasInterval i = s.hasInterval i := by
  have hj : (j == i) = false := beq_false_of_ne h.symm
  rw [← State.hasInterval_cancelInterval_ne h s]
  simp [State.hasInterval, State.setInterval, hj]

/-! ### The gate's answer to a close request (R109) -/

/-- The gate answers a close request at once where it has no weight to leave. -/
theorem Gate.closeRequest_closed_iff (g : Gate) :
    g.closeRequest.state = .closed ↔ g.state = .closed ∨ g.state = .opening ∧ g.weight = 0 := by
  cases hg : g.state with
  | opening => by_cases hw : g.weight = 0 <;> simp [Gate.closeRequest, hg, hw]
  | opened => simp [Gate.closeRequest, hg]
  | closing => simp [Gate.closeRequest, hg]
  | closed => simp [Gate.closeRequest, hg]

/-- A yield, with the gate states that answer it at once written out (R109, R188). -/
theorem State.yield_eq (s : State) : s.yield = { s with
    pair := { s.pair with
      yielding := true
      closedAt := if s.mix.gate.state = .closed ∨ s.mix.gate.state = .opening ∧ s.mix.gate.weight = 0 then some s.period else none }
    mix := { s.mix with gate := s.mix.gate.closeRequest } } := by
  simp only [State.yield, Gate.closeRequest_closed_iff]

/-! ### The pair controller's answer, case by case (R178, R187, R188) -/

theorem State.partnerTaken_yielding (hl : s.pair.role = .live) (hy : s.pair.yielding = true) (q : Station) :
    s.partnerTaken q = s := by
  rw [State.partnerTaken, if_pos hl, if_pos hy]

/-- The lower number keeps the air while its window is open. -/
theorem State.partnerTaken_keeps (hl : s.pair.role = .live) (hy : s.pair.yielding = false)
    (hw : s.hasInterval .takenWindow = true) {q : Station} (hq : s.ownStation.val < q.val) :
    s.partnerTaken q = s.announceTaken := by
  rw [State.partnerTaken, if_pos hl, if_neg (by simp [hy]), if_pos (by simp [hw, hq])]

/-- With its window closed, or the higher number, an engine yields. -/
theorem State.partnerTaken_yields (hl : s.pair.role = .live) (hy : s.pair.yielding = false) {q : Station}
    (h : s.hasInterval .takenWindow = false ∨ q.val ≤ s.ownStation.val) : s.partnerTaken q = s.yield := by
  have hlost : ¬ (s.hasInterval .takenWindow && decide (s.ownStation.val < q.val)) = true := by
    rcases h with hw | hq
    · simp [hw]
    · simp [Nat.not_lt.mpr hq]
  rw [State.partnerTaken, if_pos hl, if_neg (by simp [hy]), if_neg hlost]

theorem State.partnerTaken_shadow (hr : s.pair.role = .shadow) (q : Station) : s.partnerTaken q = s := by
  simp [State.partnerTaken, State.partnerIsLive, hr]

theorem State.partnerTaken_listen (hr : s.pair.role = .listen) (q : Station) :
    s.partnerTaken q = ({ s with pair := { s.pair with role := .shadow } } : State).cancelInterval .listen := by
  simp [State.partnerTaken, State.partnerIsLive, hr]

/-! ### The state in which the partner's TAKEN is answered -/

/-- A TAKEN has been heard and its sender's entry says LIVE (R160, R167). -/
def State.takenNoted (s : State) (h : Header) : State :=
  (s.onHearing h).modPeer (senderOf h) fun p => { p with role := some .live }

@[simp] theorem State.onHearing_pair (s : State) (h : Header) : (s.onHearing h).pair = s.pair := by
  simp only [State.onHearing, State.presence, State.toWaitIdle, State.setInterval_pair, State.modPeer_pair, State.modBus_pair]

@[simp] theorem State.onHearing_period (s : State) (h : Header) : (s.onHearing h).period = s.period := by
  simp only [State.onHearing, State.presence, State.toWaitIdle, State.setInterval_period, State.modPeer_period,
    State.modBus_period]

@[simp] theorem State.onHearing_ownStation (s : State) (h : Header) : (s.onHearing h).ownStation = s.ownStation := by
  simp only [State.onHearing, State.presence, State.toWaitIdle, State.setInterval_ownStation, State.modPeer_ownStation,
    State.modBus_ownStation]

@[simp] theorem State.takenNoted_pair (s : State) (h : Header) : (s.takenNoted h).pair = s.pair := by
  rw [State.takenNoted, State.modPeer_pair, State.onHearing_pair]

@[simp] theorem State.takenNoted_period (s : State) (h : Header) : (s.takenNoted h).period = s.period := by
  rw [State.takenNoted, State.modPeer_period, State.onHearing_period]

@[simp] theorem State.takenNoted_ownStation (s : State) (h : Header) : (s.takenNoted h).ownStation = s.ownStation := by
  rw [State.takenNoted, State.modPeer_ownStation, State.onHearing_ownStation]

@[simp] theorem State.takenNoted_mix (s : State) (h : Header) : (s.takenNoted h).mix = s.mix := by
  rw [State.takenNoted, State.modPeer_mix, State.onHearing_mix]

/-- Hearing a TAKEN moves its sender's loss expiry and leaves the TAKEN window as it was. -/
@[simp] theorem State.takenNoted_hasInterval_takenWindow (s : State) (h : Header) :
    (s.takenNoted h).hasInterval .takenWindow = s.hasInterval .takenWindow :=
  State.hasInterval_setInterval_ne IntervalHandle.noConfusion _ 48000

theorem State.tableTaken_stranger {q : Station} (hp : s.partner ≠ some q) :
    s.tableTaken q = s.modPeer q fun p => { p with role := some .live } := if_neg (mt beq_iff_eq.mp hp)

theorem State.tableTaken_partner {q : Station} (hp : s.partner = some q) :
    s.tableTaken q = (s.modPeer q fun p => { p with role := some .live }).partnerTaken q := if_pos (beq_iff_eq.mpr hp)

theorem exec_peerTaken_stranger {h : Header} (k : s.Hears h) (hp : s.partner ≠ some (senderOf h)) :
    exec (.peerTaken h) s = .next (s.takenNoted h) := by
  rw [exec_peerTaken k.running, State.hearTaken, k.heard, State.tableTaken_stranger (s := s.onHearing h) hp,
    State.takenNoted]

theorem exec_peerTaken_partner {h : Header} (k : s.Hears h) (hp : s.partner = some (senderOf h)) :
    exec (.peerTaken h) s = .next ((s.takenNoted h).partnerTaken (senderOf h)) := by
  rw [exec_peerTaken k.running, State.hearTaken, k.heard, State.tableTaken_partner (s := s.onHearing h) hp,
    State.takenNoted]

/-! ### The command, case by case -/

theorem exec_peerTaken_yielding {h : Header} (k : s.Hears h) (hp : s.partner = some (senderOf h)) (hl : s.pair.role = .live)
    (hy : s.pair.yielding = true) : exec (.peerTaken h) s = .next (s.takenNoted h) := by
  rw [← s.takenNoted_pair h] at hl hy
  rw [exec_peerTaken_partner k hp, State.partnerTaken_yielding hl hy]

theorem exec_peerTaken_keeps {h : Header} (k : s.Hears h) (hp : s.partner = some (senderOf h)) (hl : s.pair.role = .live)
    (hy : s.pair.yielding = false) (hw : s.hasInterval .takenWindow = true) (hq : s.ownStation.val < (senderOf h).val) :
    exec (.peerTaken h) s = .next (((s.takenNoted h).hand .taken).setInterval .takenWindow 48000) := by
  rw [← s.takenNoted_pair h] at hl hy
  rw [← s.takenNoted_hasInterval_takenWindow h] at hw
  rw [← s.takenNoted_ownStation h] at hq
  rw [exec_peerTaken_partner k hp, State.partnerTaken_keeps hl hy hw hq, State.announceTaken]

theorem exec_peerTaken_yields {h : Header} (k : s.Hears h) (hp : s.partner = some (senderOf h)) (hl : s.pair.role = .live)
    (hy : s.pair.yielding = false) (hlost : s.hasInterval .takenWindow = false ∨ (senderOf h).val ≤ s.ownStation.val) :
    exec (.peerTaken h) s = .next { s.takenNoted h with
      pair := { s.pair with
        yielding := true
        closedAt := if s.mix.gate.state = .closed ∨ s.mix.gate.state = .opening ∧ s.mix.gate.weight = 0 then some s.period
          else none }
      mix := { s.mix with gate := s.mix.gate.closeRequest } } := by
  rw [← s.takenNoted_pair h] at hl hy
  rw [← s.takenNoted_hasInterval_takenWindow h, ← s.takenNoted_ownStation h] at hlost
  rw [exec_peerTaken_partner k hp, State.partnerTaken_yields hl hy hlost, State.yield_eq]
  simp only [State.takenNoted_mix, State.takenNoted_pair, State.takenNoted_period]

theorem exec_peerTaken_shadow {h : Header} (k : s.Hears h) (hp : s.partner = some (senderOf h)) (hr : s.pair.role = .shadow) :
    exec (.peerTaken h) s = .next (s.takenNoted h) := by
  rw [← s.takenNoted_pair h] at hr
  rw [exec_peerTaken_partner k hp, State.partnerTaken_shadow hr]

theorem exec_peerTaken_listen {h : Header} (k : s.Hears h) (hp : s.partner = some (senderOf h)) (hr : s.pair.role = .listen) :
    exec (.peerTaken h) s
      = .next (({ s.takenNoted h with pair := { s.pair with role := .shadow } } : State).cancelInterval .listen) := by
  rw [← s.takenNoted_pair h] at hr
  rw [exec_peerTaken_partner k hp, State.partnerTaken_listen hr, State.takenNoted_pair]

/-- Settles O41: a TAKEN from another station by its entry alone, the partner's by the case of the pair controller's answer that the
role, YIELDING, the window and the two station numbers select, the window's expiry by cancelling it. -/
theorem takenIsAnsweredByWindowAndNumber : Obligations.TakenIsAnsweredByWindowAndNumber := by
  refine ⟨fun s h k => ⟨?stranger, ?yielding, ?keeps, ?yields⟩, fun s h k hp => ⟨?shadow, ?listen⟩, fun s hrun hd => ?expiry⟩
  case stranger => exact exec_peerTaken_stranger k
  case yielding => exact exec_peerTaken_yielding k
  case keeps => exact exec_peerTaken_keeps k
  case yields => exact exec_peerTaken_yields k
  case shadow => exact exec_peerTaken_shadow k hp
  case listen => exact exec_peerTaken_listen k hp
  case expiry =>
    rw [exec_takenWindowExpiry hrun, if_pos hd]
    exact ⟨_, rfl, s.hasInterval_cancelInterval_same _, rfl⟩

end Sys2Proof.Machine
end

section
/-! The screening of a received frame: the engine's own number, the line state, the target and the loader mask (R142, R154, R156, R157,
R160). -/

namespace Sys2Proof.Machine

variable {s : State}

/-! ### A frame on the line, by the line state and its sender (R142, R153, R154) -/

/-- A line that is IDLE or RECEIVING lets a frame be read (R142). -/
theorem State.heard_reads (hl : s.bus.line.Reads) (h : Header) (act : State → State) : s.heard h act = s.takeFrame h act := by
  rcases hl with hl | hl <;> simp only [State.heard, hl]

/-- A frame that is read under the engine's own number is handed to no block (R154). -/
theorem State.heard_own {h : Header} (hl : s.bus.line.Reads) (ho : senderOf h = s.ownStation) (act : State → State) :
    s.heard h act = { s with bus := { s.bus with line := .waitIdle, recessive := 0, duplicate := true } } :=
  (State.heard_reads hl h act).trans (if_pos ho)

/-- In WAIT_IDLE a frame only keeps the recessive count at 0 (R142). -/
theorem State.heard_waitIdle (hl : s.bus.line = .waitIdle) (h : Header) (act : State → State) :
    s.heard h act = { s with bus := { s.bus with recessive := 0 } } := by
  simp only [State.heard, State.toWaitIdle, State.modBus, hl]

/-- While the engine drives the line itself there is no frame to read. -/
theorem State.heard_driving (hl : s.bus.line = .sending ∨ s.bus.line = .flagging) (h : Header) (act : State → State) :
    s.heard h act = s := by
  rcases hl with hl | hl <;> simp only [State.heard, hl]

/-! ### An addressed notice that reaches no block (R156, R157) -/

/-- A notice for another engine is ignored. -/
theorem State.addressed_other {h : Header} (hs : s.forSelf h = false) (hp : s.forPartner h = false) (act : State → State) :
    s.addressed h act = s := by
  simp [State.addressed, hs, hp]

/-- A notice for self or for the partner from outside the loader mask sets FOREIGN. -/
theorem State.addressed_unmasked {h : Header} (ht : s.forSelf h = true ∨ s.forPartner h = true) (hm : s.masked h = false)
    (act : State → State) : s.addressed h act = { s with bus := { s.bus with foreign := true } } := by
  simp [State.addressed, State.modBus, ht, hm]

/-! ### Every notice is screened before it acts (R155 to R157) -/

/-- A running engine answers `c` with the state that `f` gives, where that state is at rest. -/
def AnswersAtRest (c : Instr) (f : State → State) : Prop :=
  ∀ s : State, s.phase = .running → (f s).AtRest → exec c s = .next (f s)

theorem AnswersAtRest.of_next {c : Instr} {f : State → State} (h : ∀ s : State, s.phase = .running → exec c s = .next (f s)) :
    AnswersAtRest c f := fun s hrun _ => h s hrun

/-- What a command has left to do at its end is nothing, once its state is at rest. -/
theorem AnswersAtRest.of_finish {c : Instr} {f : State → State}
    (h : ∀ s : State, s.phase = .running → exec c s = .next (f s).finish) : AnswersAtRest c f := fun s hrun hr => by
  rw [h s hrun, State.finish_atRest hr]

theorem AnswersAtRest.exec_eq {c : Instr} {f : State → State} (h : AnswersAtRest c f) (hrun : s.phase = .running) {t : State}
    (heq : f s = t) (ht : t.AtRest) : exec c s = .next t := by
  subst heq
  exact h s hrun ht

/-- An addressed notice is heard and its target and sender are tested, whatever it then does. -/
theorem addressedNotice_answers {c : Instr} {h : Header} (hc : addressedHeader c = some h) :
    ∃ act, AnswersAtRest c fun s => s.heard h fun s => s.addressed h act := by
  cases c with
  | load k f => cases hc; exact ⟨_, .of_finish fun s hrun => exec_load hrun h f⟩
  | drop k tag => cases hc; exact ⟨_, .of_finish fun s hrun => exec_drop hrun h tag⟩
  | clear k => cases hc; exact ⟨_, .of_finish fun s hrun => exec_clear hrun h⟩
  | go k g => cases hc; exact ⟨_, .of_finish fun s hrun => exec_go hrun h g⟩
  | level k f => cases hc; exact ⟨_, .of_next fun s hrun => exec_level hrun h f⟩
  | declareBreak k f => cases hc; exact ⟨_, .of_finish fun s hrun => exec_declareBreak hrun h f⟩
  | take k => cases hc; exact ⟨_, .of_finish fun s hrun => exec_take hrun h⟩
  | clearFaults k => cases hc; exact ⟨_, .of_next fun s hrun => exec_clearFaults hrun h⟩
  | _ => cases hc

/-- A notice, addressed or broadcast, is heard, whatever it then does. -/
theorem notice_answers {c : Instr} {h : Header} (hc : noticeHeader c = some h) :
    ∃ act, AnswersAtRest c fun s => s.heard h act := by
  by_cases ha : addressedHeader c = some h
  · obtain ⟨act, hact⟩ := addressedNotice_answers ha
    exact ⟨_, hact⟩
  cases c with
  | peerStart k f => cases hc; exact ⟨_, .of_finish fun s hrun => exec_peerStart hrun h f⟩
  | peerSegue k f => cases hc; exact ⟨_, .of_finish fun s hrun => exec_peerSegue hrun h f⟩
  | peerEnd k f => cases hc; exact ⟨_, .of_finish fun s hrun => exec_peerEnd hrun h f⟩
  | peerDuck k f => cases hc; exact ⟨_, .of_next fun s hrun => exec_peerDuck hrun h f⟩
  | peerFault k f => cases hc; exact ⟨_, .of_finish fun s hrun => exec_peerFault hrun h f⟩
  | peerStatus k f => cases hc; exact ⟨_, .of_finish fun s hrun => exec_peerStatus hrun h f⟩
  | peerTaken k => cases hc; exact ⟨_, .of_next fun s hrun => exec_peerTaken hrun h⟩
  | peerAsrun k f => cases hc; exact ⟨_, .of_next fun s hrun => exec_peerAsrun hrun h f⟩
  | _ => exact absurd hc ha

/-! ### What hearing a frame writes (R142, R160) -/

theorem State.onHearing_bus (s : State) (h : Header) :
    (s.onHearing h).bus = { s.bus with line := .waitIdle, recessive := 0 } := rfl

theorem State.onHearing_intervals (s : State) (h : Header) : (s.onHearing h).intervals =
    (s.intervals.filter fun x => x.handle != .peerLoss (senderOf h)) ++ [⟨.peerLoss (senderOf h), s.period + 48000⟩] := rfl

theorem State.onHearing_stamps (s : State) (h : Header) : (s.onHearing h).peers.stamps = s.peers.stamps := rfl

theorem State.peer_onHearing_sender (s : State) (h : Header) : (s.onHearing h).peer (senderOf h) =
    { s.peer (senderOf h) with presence := .present, lastHeard := some s.clock.airTime } :=
  s.toWaitIdle.peer_modPeer_self (senderOf h) fun p => { p with presence := .present, lastHeard := some s.now }

theorem State.peer_onHearing_other {h : Header} {q : Station} (hq : q ≠ senderOf h) (s : State) :
    (s.onHearing h).peer q = s.peer q :=
  s.toWaitIdle.peer_modPeer_ne (senderOf h) q (fun p => { p with presence := .present, lastHeard := some s.now }) hq.symm

/-- Hearing a frame acts on the bus, the peer table and the interval expiries alone. -/
theorem State.onHearing_frame (s : State) (h : Header) : s.onHearing h =
    { s with bus := (s.onHearing h).bus, peers := (s.onHearing h).peers, intervals := (s.onHearing h).intervals } := rfl

/-! ### The commands -/

/-- A state stays at rest when only the bus controller's part changes. -/
theorem State.AtRest.withBus (h : s.AtRest) (b : CueBus) : ({ s with bus := b } : State).AtRest := h

theorem exec_peerAsrun_heard {h : Header} (k : s.Hears h) (f : AsRunFields) :
    exec (.peerAsrun h f) s = .next (s.onHearing h) := by
  rw [exec_peerAsrun k.running, State.hearAsrun, k.heard]

/-- An addressed notice that is heard leaves what its tests leave, if they hand it to no block. -/
theorem exec_addressed_heard {c : Instr} {h : Header} (hc : addressedHeader c = some h) (k : s.Hears h) {t : State}
    (ht : t.AtRest) (hact : ∀ act, (s.onHearing h).addressed h act = t) : exec c s = .next t := by
  obtain ⟨act, hans⟩ := addressedNotice_answers hc
  exact hans.exec_eq k.running ((k.heard _).trans (hact act)) ht

/-- A notice leaves what its line state leaves, if it is handed to no block. -/
theorem exec_notice_heard {c : Instr} {h : Header} (hc : noticeHeader c = some h) (hrun : s.phase = .running) {t : State}
    (ht : t.AtRest) (heq : ∀ act, s.heard h act = t) : exec c s = .next t := by
  obtain ⟨act, hans⟩ := notice_answers hc
  exact hans.exec_eq hrun (heq act) ht

/-- Settles O27: every notice is heard before it acts and every addressed one is tested, so that the cases in which no block takes it
follow from the line state, the sender and the target alone. -/
theorem framesAreScreened : Obligations.FramesAreScreened := by
  refine ⟨fun c h s hc hrun hr => ⟨?own, ?waitIdle, ?driving⟩, fun c h s hc hr k => ⟨?other, ?foreign⟩, fun s h f k => ?asrun⟩
  case own => exact fun hl ho => exec_notice_heard hc hrun (hr.withBus _) (State.heard_own hl ho)
  case waitIdle => exact fun hl => exec_notice_heard hc hrun (hr.withBus _) (State.heard_waitIdle hl h)
  case driving => exact fun hl => exec_notice_heard hc hrun hr (State.heard_driving hl h)
  case other => exact fun hs hp => exec_addressed_heard hc k (hr.onHearing h) (State.addressed_other (s := s.onHearing h) hs hp)
  case foreign =>
    exact fun ht hm => exec_addressed_heard hc k ((hr.onHearing h).withBus _)
      (State.addressed_unmasked (s := s.onHearing h) ht hm)
  case asrun =>
    exact ⟨_, exec_peerAsrun_heard k f, s.onHearing_bus h, s.peer_onHearing_sender h,
      fun q hq => State.peer_onHearing_other hq s, s.onHearing_intervals h, s.onHearing_frame h, s.onHearing_stamps h⟩

end Sys2Proof.Machine
end

section
/-! What a peer announces: its items, its duck requests and its faults at the table, and what is passed on (R162 to R166). -/

namespace Sys2Proof.Machine

variable {s : State}

/-! ### The table's entry after each notice (R162 to R166) -/

theorem Peer.items_any_tag_iff {p : Peer} {tag : Nat} :
    p.items.any (fun i => i.tag == tag) = true ↔ ∃ i ∈ p.items, i.tag = tag := by
  simp only [List.any_eq_true, beq_iff_eq]

theorem Peer.not_items_any_tag {p : Peer} {tag : Nat} (h : ∀ i ∈ p.items, i.tag ≠ tag) :
    ¬ p.items.any (fun i => i.tag == tag) = true :=
  fun k => let ⟨i, hi, ht⟩ := Peer.items_any_tag_iff.mp k; h i hi ht

/-- START takes its tag from the ended tags and leaves the duck requests, the faults and the presence. -/
theorem Peer.start_frame (p : Peer) (f : StartFields) (n : Nat) :
    let u := p.start f n
    u.ended = (p.ended.filter fun t => t != f.tag.toNat)
      ∧ u.ducks = p.ducks ∧ u.faults = p.faults ∧ u.presence = p.presence := by
  simp only [Peer.start, Peer.addItem]
  split <;> exact ⟨rfl, rfl, rfl, rfl⟩

theorem Peer.items_start_known {p : Peer} {f : StartFields} {n : Nat} (h : ∃ i ∈ p.items, i.tag = f.tag.toNat) :
    (p.start f n).items = p.items.map fun i => if i.tag = f.tag.toNat then
      { i with group := f.group.toNat, start := readTime f.start, segue := readTime f.segue, finish := readTime f.finish }
      else i := by
  simp only [Peer.start, if_pos (Peer.items_any_tag_iff.mpr h)]

theorem Peer.items_start_new {p : Peer} {f : StartFields} {n : Nat} (h : ∀ i ∈ p.items, i.tag ≠ f.tag.toNat) :
    (p.start f n).items = p.items.drop (p.items.length - 7)
      ++ [⟨f.tag.toNat, f.group.toNat, readTime f.start, readTime f.segue, readTime f.finish, false, none, n⟩] := by
  simp only [Peer.start, if_neg (Peer.not_items_any_tag h), Peer.addItem, keepSeven]

/-- SEGUE leaves all but the items. -/
theorem Peer.segue_frame (p : Peer) (f : SegueFields) (n : Nat) :
    let u := p.segue f n
    u.ended = p.ended ∧ u.ducks = p.ducks ∧ u.faults = p.faults ∧ u.presence = p.presence := by
  simp only [Peer.segue, Peer.addItem]
  split <;> exact ⟨rfl, rfl, rfl, rfl⟩

theorem Peer.items_segue_known {p : Peer} {f : SegueFields} {n : Nat} (h : ∃ i ∈ p.items, i.tag = f.tag.toNat) :
    (p.segue f n).items = p.items.map fun i => if i.tag = f.tag.toNat then
      { i with segued := true, segueTime := readTime f.time } else i := by
  simp only [Peer.segue, if_pos (Peer.items_any_tag_iff.mpr h)]

theorem Peer.items_segue_new {p : Peer} {f : SegueFields} {n : Nat} (h : ∀ i ∈ p.items, i.tag ≠ f.tag.toNat) :
    (p.segue f n).items = p.items.drop (p.items.length - 7)
      ++ [⟨f.tag.toNat, f.group.toNat, none, none, none, true, readTime f.time, n⟩] := by
  simp only [Peer.segue, if_neg (Peer.not_items_any_tag h), Peer.addItem, keepSeven]

theorem Peer.ended_finish (p : Peer) (tag : Nat) :
    (p.finish tag).ended = if tag ∈ p.ended then p.ended else p.ended.drop (p.ended.length - 7) ++ [tag] := by
  simp only [Peer.finish, keepSeven, List.contains_iff_mem]

theorem Peer.duck_eq (p : Peer) (f : DuckFields) : p.duck f =
    let others := p.ducks.filter fun q => q.tag != f.tag.toNat
    { p with ducks := if f.depth.toNat = 0 then others
        else others.drop (others.length - 7) ++ [⟨f.domain.toNat, f.depth.toNat, f.tag.toNat⟩] } := by
  simp only [Peer.duck, keepSeven]
  split <;> rfl

/-- A kind of 13.2 names one of the three flags. -/
theorem PeerFaults.put_eq {kind : Nat} (h1 : 1 ≤ kind) (h3 : kind ≤ 3) (x : PeerFaults) (b : Bool) : x.put kind b =
    if kind = 1 then { x with deadAir := b } else if kind = 2 then { x with overload := b } else { x with store := b } := by
  obtain rfl | rfl | rfl : kind = 1 ∨ kind = 2 ∨ kind = 3 := by omega
  · rfl
  · rfl
  · rfl

theorem Peer.fault_eq {f : FaultFields} (hg : f.group.toNat < 4) (p : Peer) : p.fault f =
    { p with faults := p.faults.set f.group.toNat (p.faults[f.group.toNat].put f.kind.toNat (decide (f.set ≠ 0))) } := by
  rw [Peer.fault, dif_pos hg, bne, decide_not, ← beq_eq_decide]

theorem faultDefined_iff {f : FaultFields} :
    faultDefined f = true ↔ f.group.toNat < 4 ∧ 1 ≤ f.kind.toNat ∧ f.kind.toNat ≤ 3 := by
  simp only [faultDefined, Bool.and_eq_true, decide_eq_true_iff, and_assoc]

/-! ### The table's own part of the state -/

theorem State.onHearing_partner (s : State) (h : Header) : (s.onHearing h).partner = s.partner := rfl

theorem State.isPartner_iff {q : Station} : s.isPartner q = true ↔ s.partner = some q := beq_iff_eq

theorem State.ite_isPartner {α : Type} (q : Station) (a b : α) :
    (if s.isPartner q then a else b) = if s.partner = some q then a else b := if_congr State.isPartner_iff rfl rfl

/-- Only the entry as it stands matters to a change of it. -/
theorem State.modPeer_congr {q : Station} {f g : Peer → Peer} (h : f (s.peer q) = g (s.peer q)) :
    s.modPeer q f = s.modPeer q g := by
  simp only [State.modPeer, h]

theorem State.tableStart_eq (s : State) (q : Station) (f : StartFields) : s.tableStart q f =
    (s.modPeer q fun p => p.start f s.peers.stamps).nextStamp.emit ([.peerStart q f.tag.toNat (readTime f.segue)]
      ++ if s.partner = some q then [.partnerStart f.tag.toNat (readTime f.start)] else []) := by
  simp only [State.tableStart, State.ite_isPartner]

theorem State.tableEnd_eq (s : State) (q : Station) (f : EndFields) : s.tableEnd q f =
    (s.modPeer q fun p => p.finish f.tag.toNat).emit ([.peerMark q f.tag.toNat]
      ++ if s.partner = some q then [.partnerEnd f.tag.toNat] else []) := by
  simp only [State.tableEnd, State.ite_isPartner]

theorem State.tableFault_undefined {f : FaultFields} (h : ¬ faultDefined f = true) (q : Station) : s.tableFault q f = s :=
  if_neg h

/-- A FAULT that is not the partner's DEAD_AIR set on an air group stays at the table. -/
theorem State.tableFault_quiet {q : Station} {f : FaultFields} (h : faultDefined f = true)
    (hn : ¬ (s.partner = some q ∧ f.kind = 1 ∧ f.set ≠ 0 ∧ f.group ≠ 0)) :
    s.tableFault q f = s.modPeer q fun p => p.fault f := by
  have hquiet : ¬ ((s.modPeer q fun p => p.fault f).isPartner q && f.kind == 1 && f.set != 0 && f.group != 0) = true := by
    simp only [Bool.and_eq_true, State.isPartner_iff, beq_iff_eq, bne_iff_ne, and_assoc]
    exact hn
  rw [State.tableFault, if_pos h]
  exact if_neg hquiet

/-! ### A frame heard and its sender's entry changed -/

/-- A frame has been heard and its sender's entry is changed by `g` (R160, 9.2). -/
def State.noted (s : State) (h : Header) (g : Peer → Peer) : State := (s.onHearing h).modPeer (senderOf h) g

theorem State.peer_noted_sender (s : State) (h : Header) (g : Peer → Peer) : (s.noted h g).peer (senderOf h) =
    g { s.peer (senderOf h) with presence := .present, lastHeard := some s.clock.airTime } := by
  rw [State.noted, State.peer_modPeer_self, State.peer_onHearing_sender]

theorem State.peer_noted_other {h : Header} {q : Station} (hq : q ≠ senderOf h) (s : State) (g : Peer → Peer) :
    (s.noted h g).peer q = s.peer q := by
  rw [State.noted, State.peer_modPeer_ne _ _ _ _ hq.symm, State.peer_onHearing_other hq]

@[simp] theorem State.noted_work (s : State) (h : Header) (g : Peer → Peer) : (s.noted h g).work = s.work := rfl

theorem State.peer_nextStamp (s : State) (q : Station) : s.nextStamp.peer q = s.peer q := rfl

theorem State.peer_emit (s : State) (ts : List Task) (q : Station) : (s.emit ts).peer q = s.peer q := rfl

/-- A state stays at rest when only an entry of the peer table changes. -/
theorem State.AtRest.modPeer (h : s.AtRest) (q : Station) (g : Peer → Peer) : (s.modPeer q g).AtRest := h

theorem State.AtRest.noted (h : s.AtRest) (k : Header) (g : Peer → Peer) : (s.noted k g).AtRest := (h.onHearing k).modPeer _ _

/-- Changing an entry and asking for reactions acts on the table and the list of reactions alone. -/
theorem State.emit_modPeer_frame (s : State) (q : Station) (g : Peer → Peer) (ts : List Task) :
    let x := (s.modPeer q g).emit ts
    x = { s with peers := x.peers, work := x.work } := rfl

/-- The same with an arrival number taken. -/
theorem State.emit_nextStamp_modPeer_frame (s : State) (q : Station) (g : Peer → Peer) (ts : List Task) :
    let x := (s.modPeer q g).nextStamp.emit ts
    x = { s with peers := x.peers, work := x.work } := rfl

/-! ### The commands -/

theorem exec_peerStart_heard {h : Header} (k : s.Hears h) (f : StartFields) :
    exec (.peerStart h f) s = .next ((s.noted h fun p => p.start f s.peers.stamps).nextStamp.emit
      ([.peerStart (senderOf h) f.tag.toNat (readTime f.segue)]
        ++ if s.partner = some (senderOf h) then [.partnerStart f.tag.toNat (readTime f.start)] else [])).finish := by
  rw [exec_peerStart k.running, State.hearStart, k.heard, State.tableStart_eq, State.onHearing_partner,
    State.onHearing_stamps, State.noted]

theorem exec_peerSegue_heard {h : Header} (k : s.Hears h) (f : SegueFields) :
    exec (.peerSegue h f) s = .next ((s.noted h fun p => p.segue f s.peers.stamps).nextStamp.emit
      [.peerMark (senderOf h) f.tag.toNat]).finish := by
  rw [exec_peerSegue k.running, State.hearSegue, k.heard, State.tableSegue, State.onHearing_stamps, State.noted]

theorem exec_peerEnd_heard {h : Header} (k : s.Hears h) (f : EndFields) :
    exec (.peerEnd h f) s = .next ((s.noted h fun p => p.finish f.tag.toNat).emit
      ([.peerMark (senderOf h) f.tag.toNat]
        ++ if s.partner = some (senderOf h) then [.partnerEnd f.tag.toNat] else [])).finish := by
  rw [exec_peerEnd k.running, State.hearEnd, k.heard, State.tableEnd_eq, State.onHearing_partner,
    State.noted]

theorem exec_peerDuck_heard {h : Header} (k : s.Hears h) (f : DuckFields) :
    exec (.peerDuck h f) s = .next (s.noted h fun p => p.duck f) := by
  rw [exec_peerDuck k.running, State.hearDuck, k.heard, State.tableDuck, State.noted]

theorem exec_peerFault_undefined {h : Header} {f : FaultFields} (k : s.Hears h) (hr : s.AtRest)
    (hf : ¬ faultDefined f = true) : exec (.peerFault h f) s = .next (s.onHearing h) := by
  rw [exec_peerFault k.running, State.hearFault, k.heard, State.tableFault_undefined hf,
    State.finish_atRest (hr.onHearing h)]

theorem exec_peerFault_quiet {h : Header} {f : FaultFields} (k : s.Hears h) (hr : s.AtRest) (hf : faultDefined f = true)
    (hn : ¬ (s.partner = some (senderOf h) ∧ f.kind = 1 ∧ f.set ≠ 0 ∧ f.group ≠ 0)) :
    exec (.peerFault h f) s = .next (s.noted h fun p => p.fault f) := by
  rw [exec_peerFault k.running, State.hearFault, k.heard, State.tableFault_quiet (s := s.onHearing h) hf hn,
    ← State.noted, State.finish_atRest (hr.noted h _)]

/-! ### The entries after START, SEGUE and END -/

/-- Settles O43: each announcement changes its sender's entry as the table's rule for that notice says, and asks for the reactions
of peer coupling and, for the partner, of the pair controller. -/
theorem announcementsUpdateTheEntry : Obligations.AnnouncementsUpdateTheEntry := by
  refine ⟨fun s h f k => ⟨_, exec_peerStart_heard k f, ?startEntry, ?startOthers, ?startWork,
      (s.onHearing h).emit_nextStamp_modPeer_frame _ _ _⟩,
    fun s h f k => ⟨_, exec_peerSegue_heard k f, ?segueEntry, ?segueOthers, ?segueWork,
      (s.onHearing h).emit_nextStamp_modPeer_frame _ _ _⟩,
    fun s h f k => ⟨_, exec_peerEnd_heard k f, ?endEntry, ?endOthers, ?endWork,
      (s.onHearing h).emit_modPeer_frame _ _ _⟩⟩
  case startEntry =>
    rw [State.peer_emit, State.peer_nextStamp, State.peer_noted_sender]
    exact ⟨fun hk => Peer.items_start_known hk, fun hn => ⟨_, Peer.items_start_new hn⟩, Peer.start_frame _ f _⟩
  case segueEntry =>
    rw [State.peer_emit, State.peer_nextStamp, State.peer_noted_sender]
    exact ⟨fun hk => Peer.items_segue_known hk, fun hn => ⟨_, Peer.items_segue_new hn⟩, Peer.segue_frame _ f _⟩
  case endEntry =>
    rw [State.peer_emit, State.peer_noted_sender]
    exact ⟨rfl, Peer.ended_finish _ _, rfl, rfl, rfl⟩
  case startOthers => exact fun q hq => by rw [State.peer_emit, State.peer_nextStamp, State.peer_noted_other hq]
  case segueOthers => exact fun q hq => by rw [State.peer_emit, State.peer_nextStamp, State.peer_noted_other hq]
  case endOthers => exact fun q hq => by rw [State.peer_emit, State.peer_noted_other hq]
  case startWork => rw [State.emit_work, State.nextStamp_work, State.noted_work, List.append_assoc]
  case segueWork => rw [State.emit_work, State.nextStamp_work, State.noted_work]
  case endWork => rw [State.emit_work, State.noted_work, List.append_assoc]

/-! ### The entries after DUCK and FAULT -/

/-- Settles O44: DUCK and a defined FAULT change their sender's entry as the table's rule for that notice says, and an
undefined FAULT leaves what hearing it leaves. -/
theorem peerDucksAndFaultsAreKept : Obligations.PeerDucksAndFaultsAreKept := by
  refine ⟨fun s h f k => ?duck, fun s h f k hr => ⟨fun hu => ?undefined, fun hg h1 h3 hn => ?defined⟩⟩
  case duck =>
    rw [exec_peerDuck_heard k]
    refine congrArg Host.Outcome.next (State.modPeer_congr ?_)
    rw [Peer.duck_eq, State.peer_onHearing_sender]
  case undefined =>
    refine exec_peerFault_undefined k hr fun hf => ?_
    obtain ⟨hg, h1, h3⟩ := faultDefined_iff.mp hf
    omega
  case defined =>
    rw [exec_peerFault_quiet k hr (faultDefined_iff.mpr ⟨hg, h1, h3⟩) hn]
    refine congrArg Host.Outcome.next (State.modPeer_congr ?_)
    rw [Peer.fault_eq hg, PeerFaults.put_eq h1 h3]

end Sys2Proof.Machine
end


section
/-! What every command keeps: the queue of commands and the limits of the tables; and what every event of a sample period leaves as it
is, air time among it (O1 to O4, O11). -/

namespace Sys2Proof.Machine

variable {s t u : State}

/-! ### The two relations -/

/-- A command can lead from `s` to `t`: the queue of commands is left alone and the limits are kept. -/
structure State.Keeps (s t : State) : Prop where
  pending : t.pending = s.pending
  limits : s.Limits → t.Limits

/-- An event inside a sample period can lead from `s` to `t`: it leaves also the sample period's number, air time and day. -/
structure State.Event (s t : State) : Prop extends s.Keeps t where
  period : t.period = s.period
  airTime : t.clock.airTime = s.clock.airTime
  day : t.clock.day = s.clock.day

theorem State.Event.refl (s : State) : s.Event s := ⟨⟨rfl, id⟩, rfl, rfl, rfl⟩

theorem State.Event.trans (h : s.Event t) (k : t.Event u) : s.Event u where
  pending := k.pending.trans h.pending
  limits := k.limits ∘ h.limits
  period := k.period.trans h.period
  airTime := k.airTime.trans h.airTime
  day := k.day.trans h.day

/-- Transitivity, the outer operation first. -/
theorem State.Event.andThen (k : t.Event u) (h : s.Event t) : s.Event u := h.trans k

theorem State.Event.ite {c : Prop} [Decidable c] (h : s.Event t) (k : s.Event u) : s.Event (if c then t else u) := by
  split
  · exact h
  · exact k

theorem State.Event.foldl {α : Type} (f : State → α → State) (hf : ∀ (s : State) (a : α), s.Event (f s a)) (l : List α) (s : State) :
    s.Event (l.foldl f s) :=
  List.foldlRecOn l f (motive := fun t => s.Event t) (.refl s) fun t ht a _ => ht.trans (hf t a)

/-! ### What a reaction leaves alone, field by field -/

section
variable (h : s.After t)
include h

theorem State.After.phase_eq : t.phase = s.phase := (congrArg State.phase h.still :)
theorem State.After.configDefault_eq : t.configDefault = s.configDefault := (congrArg State.configDefault h.still :)
theorem State.After.cfg_eq : t.cfg = s.cfg := (congrArg State.cfg h.still :)
theorem State.After.ownStation_eq : t.ownStation = s.ownStation := (congrArg State.ownStation h.still :)
theorem State.After.clock_eq : t.clock = s.clock := (congrArg State.clock h.still :)
theorem State.After.period_eq : t.period = s.period := (congrArg State.period h.still :)
theorem State.After.peers_eq : t.peers = s.peers := (congrArg State.peers h.still :)
theorem State.After.pair_eq : t.pair = s.pair := (congrArg State.pair h.still :)
theorem State.After.pending_eq : t.pending = s.pending := (congrArg State.pending h.still :)
theorem State.After.gate_eq : t.mix.gate = s.mix.gate := (congrArg (fun x : State => x.mix.gate) h.still :)
theorem State.After.master_eq : t.mix.master = s.mix.master := (congrArg (fun x : State => x.mix.master) h.still :)
theorem State.After.levels_eq : t.mix.levels = s.mix.levels := (congrArg (fun x : State => x.mix.levels) h.still :)
theorem State.After.groups_eq : t.monitor.groups = s.monitor.groups := (congrArg (fun x : State => x.monitor.groups) h.still :)
theorem State.After.full_eq : t.monitor.full = s.monitor.full := (congrArg (fun x : State => x.monitor.full) h.still :)
theorem State.After.breaksFull_eq : t.breaks.full = s.breaks.full := (congrArg (fun x : State => x.breaks.full) h.still :)
theorem State.After.reportPos_eq : t.breaks.reportPos = s.breaks.reportPos :=
  (congrArg (fun x : State => x.breaks.reportPos) h.still :)
theorem State.After.isLive_eq : t.isLive = s.isLive := by rw [State.isLive, h.pair_eq, State.isLive]
theorem State.After.now_eq : t.now = s.now := by rw [State.now, h.clock_eq, State.now]

/-- The read timeout is the one interval expiry that a reaction may set or cancel. -/
theorem State.After.mem_intervals {x : IntervalExpiry} (hx : x.handle ≠ .readTimeout) : x ∈ t.intervals ↔ x ∈ s.intervals := by
  have hf : (t.intervals.filter fun x => x.handle != .readTimeout) = s.intervals.filter fun x => x.handle != .readTimeout :=
    (congrArg State.intervals h.still :)
  have := congrArg (x ∈ ·) hf
  simpa [hx] using this

end

/-- What may happen inside one command is an event. -/
theorem State.After.event (h : s.After t) : s.Event t := by
  refine ⟨⟨h.pending_eq, fun k => ?_⟩, h.period_eq, by rw [h.clock_eq], by rw [h.clock_eq]⟩
  exact
    { clock := h.clock_eq ▸ k.clock
      order := h.order k.order
      log := h.log k.log
      queue := h.queue k.queue
      gate := h.gate_eq ▸ k.gate
      peers := fun q => by rw [State.peer, h.peers_eq]; exact k.peers q
      ducks := fun d => (h.ducks d).trans (k.ducks d)
      bases := fun d => (h.bases d).trans (k.bases d) }

/-- A change of nothing that the limits speak of. -/
theorem State.Event.of_frame (hpending : t.pending = s.pending := by rfl) (hperiod : t.period = s.period := by rfl)
    (hclock : t.clock = s.clock := by rfl) (hrecords : t.records = s.records := by rfl) (hlog : t.log = s.log := by rfl)
    (hqueue : t.bus.queue = s.bus.queue := by rfl) (hgate : t.mix.gate = s.mix.gate := by rfl) (hpeers : t.peers = s.peers := by rfl)
    (hdecks : t.decks = s.decks := by rfl) (hbases : t.mix.duckBase = s.mix.duckBase := by rfl) : s.Event t := by
  refine ⟨⟨hpending, fun k => ?_⟩, hperiod, by rw [hclock], by rw [hclock]⟩
  exact
    { clock := hclock ▸ k.clock
      order := by have := k.order; simpa only [State.OrderOk, State.tags, hrecords] using this
      log := hlog ▸ k.log
      queue := hqueue ▸ k.queue
      gate := hgate ▸ k.gate
      peers := fun q => by rw [State.peer, hpeers]; exact k.peers q
      ducks := fun d => by rw [State.deck, hdecks]; exact k.ducks d
      bases := fun d => by rw [hbases]; exact k.bases d }

/-! ### One part changed -/

theorem State.event_cancelInterval (i : IntervalHandle) : s.Event (s.cancelInterval i) := .of_frame

theorem State.event_setInterval (i : IntervalHandle) (n : Nat) : s.Event (s.setInterval i n) := .of_frame

theorem State.event_setGroup (a : Fin 3) (g : GroupMonitor) : s.Event (s.setGroup a g) := .of_frame

theorem State.event_modGroups (f : GroupMonitor → GroupMonitor) : s.Event (s.modGroups f) := .of_frame

theorem State.event_clearTimers : s.Event s.clearTimers := .of_frame

/-- The bus changes and its queue stays within 8. -/
theorem State.event_bus (b : CueBus) (h : s.bus.queue.length ≤ 8 → b.queue.length ≤ 8) : s.Event { s with bus := b } :=
  ⟨⟨rfl, fun k => ⟨k.clock, k.order, k.log, h k.queue, k.gate, k.peers, k.ducks, k.bases⟩⟩, rfl, rfl, rfl⟩

theorem State.event_modBus (f : CueBus → CueBus) (h : ∀ b, b.queue.length ≤ 8 → (f b).queue.length ≤ 8) : s.Event (s.modBus f) :=
  State.event_bus _ (h _)

/-- The gate changes and its weight stays within 960. -/
theorem State.event_modGate (f : Gate → Gate) (h : ∀ g, g.weight ≤ 960 → (f g).weight ≤ 960) : s.Event (s.modGate f) :=
  ⟨⟨rfl, fun k => ⟨k.clock, k.order, k.log, k.queue, h _ k.gate, k.peers, k.ducks, k.bases⟩⟩, rfl, rfl, rfl⟩

/-- A peer entry changes and its lists stay within 8. -/
theorem State.event_modPeer (q : Station) (f : Peer → Peer) (h : ∀ p, p.Ok → (f p).Ok) : s.Event (s.modPeer q f) := by
  refine ⟨⟨rfl, fun k => ⟨k.clock, k.order, k.log, k.queue, k.gate, fun p => ?_, k.ducks, k.bases⟩⟩, rfl, rfl, rfl⟩
  by_cases hp : q = p
  · rw [← hp, State.peer_modPeer_self]
    exact h _ (k.peers q)
  · rw [State.peer_modPeer_ne _ _ _ _ hp]
    exact k.peers p

/-- The log changes within its limits. -/
theorem State.event_log (l : AsRunLog) (h : s.log.Ok → l.Ok) : s.Event { s with log := l } :=
  ⟨⟨rfl, fun k => ⟨k.clock, k.order, h k.log, k.queue, k.gate, k.peers, k.ducks, k.bases⟩⟩, rfl, rfl, rfl⟩

/-- The clock changes in other fields than air time and day, within its ranges. -/
theorem State.event_clock (c : Clock) (ha : c.airTime = s.clock.airTime) (hd : c.day = s.clock.day) (h : s.clock.Ok → c.Ok) :
    s.Event { s with clock := c } :=
  ⟨⟨rfl, fun k => ⟨h k.clock, k.order, k.log, k.queue, k.gate, k.peers, k.ducks, k.bases⟩⟩, rfl, ha, hd⟩

/-- Records change and keep their tags. -/
theorem State.event_records (f : CueRecord → CueRecord) (h : ∀ r, (f r).tag = r.tag) :
    s.Event { s with records := s.records.map f } := by
  have htags : ({ s with records := s.records.map f } : State).tags = s.tags := by
    simp only [State.tags, List.map_map]
    exact List.map_congr_left fun r _ => h r
  refine ⟨⟨rfl, fun k => ⟨k.clock, ⟨?_, ?_⟩, k.log, k.queue, k.gate, k.peers, k.ducks, k.bases⟩⟩, rfl, rfl, rfl⟩
  · simpa only [List.length_map] using k.order.1
  · rw [htags]; exact k.order.2

/-! ### The transmit queue and the log -/

theorem replaceStatus_length (f : StatusFields) (q : List Queued) : (replaceStatus f q).length = q.length := List.length_map _

theorem CueBus.handStatus_queue_le (b : CueBus) (f : StatusFields) (h : b.queue.length ≤ 8) : (b.handStatus f).1.queue.length ≤ 8 := by
  unfold CueBus.handStatus
  split
  · exact (b.handPlain_keeps _).2 h
  · split
    · exact h
    · exact (replaceStatus_length f b.queue).le.trans h

theorem State.event_unoffer : s.Event s.unoffer := State.after_unoffer.event

/-- Any notice may be handed. -/
theorem State.event_hand (n : Notice) : s.Event (s.hand n) := by
  unfold State.hand
  split
  rename_i b evicted hb
  have hqueue : s.bus.queue.length ≤ 8 → b.queue.length ≤ 8 := fun h => by
    split at hb
    · rename_i f
      have := s.bus.handStatus_queue_le f h
      rwa [hb] at this
    · have := (s.bus.handPlain_keeps n).2 h
      rwa [hb] at this
  have hbus := State.event_bus b hqueue
  exact .ite (.andThen State.event_unoffer hbus) hbus

theorem State.event_handLive (n : Notice) : s.Event (s.handLive n) := .ite (s.event_hand n) (.refl s)

/-! ### Gate and duck values -/

theorem Gate.openRequest_weight (g : Gate) : g.openRequest.weight = g.weight := by
  unfold Gate.openRequest
  split <;> rfl

theorem Gate.closeRequest_weight (g : Gate) : g.closeRequest.weight = g.weight := by
  unfold Gate.closeRequest
  split <;> rfl

theorem Gate.move_weight_le (g : Gate) (h : g.weight ≤ 960) : g.move.weight ≤ 960 := by
  unfold Gate.move
  split
  · exact Nat.min_le_left _ _
  · exact (Nat.sub_le _ _).trans h
  · exact h
  · exact h

theorem stepDuck_le {d target a r m : Nat} (hd : d ≤ m) (ht : target ≤ m) : stepDuck d target a r ≤ m := by
  unfold stepDuck
  split
  · omega
  · split <;> omega

theorem State.duckTarget_le (s : State) (d : DeckNo) (it : Item) : s.duckTarget d it ≤ 300 := by
  obtain ⟨hzero, hmax⟩ := duckTargetIsAGreatestDepth s d it
  by_cases h : it.cls = .advert ∨ s.domain it.group = 0
  · rw [hzero h]; omega
  · obtain ⟨-, -, hval⟩ := hmax (fun k => h (.inl k)) (fun k => h (.inr k))
    rcases hval with k | ⟨e, -, q, -, -, k⟩ | ⟨p, q, -, -, -, k⟩ <;> rw [k] <;> omega

/-- A duck value set within 300. -/
theorem State.event_setDeck (d : DeckNo) (x : Deck) (h : s.Limits → x.duckValue ≤ 300) : s.Event (s.setDeck d x) := by
  refine ⟨⟨rfl, fun k => ⟨k.clock, k.order, k.log, k.queue, k.gate, k.peers, fun e => ?_, k.bases⟩⟩, rfl, rfl, rfl⟩
  rw [State.deck_setDeck]
  split
  · exact h k
  · exact k.ducks e

theorem State.event_computeDeck (d : DeckNo) : s.Event (s.computeDeck d) := by
  unfold State.computeDeck
  dsimp only
  split
  · refine .andThen (t := s.setDeck d _) .of_frame (s.event_setDeck d _ fun k => ?_)
    exact stepDuck_le (k.bases d) (s.duckTarget_le d _)
  · exact .refl s

theorem State.event_computeAll : s.Event s.computeAll := .foldl State.computeDeck (fun s d => s.event_computeDeck d) _ s

theorem State.saveDucks_bases (s : State) (d : DeckNo) : s.saveDucks.mix.duckBase[d] = (s.deck d).duckValue := by
  revert d
  simp [State.saveDucks, Fin.forall_fin_succ]

theorem State.event_saveDucks : s.Event s.saveDucks :=
  ⟨⟨rfl, fun k => ⟨k.clock, k.order, k.log, k.queue, k.gate, k.peers, k.ducks, fun d => by
    rw [State.saveDucks_bases]; exact k.ducks d⟩⟩, rfl, rfl, rfl⟩

theorem State.event_controlPeriodAt : s.Event s.controlPeriodAt :=
  .ite (.andThen (t := s.saveDucks.computeAll) .of_frame (.andThen State.event_computeAll State.event_saveDucks)) (.refl s)

theorem State.event_settleControl : s.Event s.settleControl := .ite State.event_computeAll (.refl s)

/-! ### Monitor -/

theorem State.event_handFault (group kind : Nat) (b : Option Bool) : s.Event (s.handFault group kind b) := by
  cases b with
  | none => exact .refl s
  | some b => exact s.event_handLive _

theorem State.event_judgeGroup (a : Fin 3) : s.Event (s.judgeGroup a) := by
  unfold State.judgeGroup
  exact .ite (.andThen (State.event_handFault _ _ _) (.andThen (State.event_handFault _ _ _) (s.event_setGroup a _)))
    (s.event_setGroup a _)

theorem State.event_releaseStoreFaults (p : Nat → Bool) : s.Event (s.releaseStoreFaults p) := (s.after_releaseStoreFaults p).event

theorem State.event_monitorWindowAt : s.Event s.monitorWindowAt := by
  unfold State.monitorWindowAt
  refine .ite ?_ (.refl s)
  exact .andThen (t := (allAir.foldl State.judgeGroup s).releaseStoreFaults fun n => decide (n < s.period)) .of_frame
    (.andThen (State.event_releaseStoreFaults _) (.foldl State.judgeGroup (fun s a => s.event_judgeGroup a) _ s))

theorem State.event_closeFaults : s.Event s.closeFaults := .ite (.refl s) (s.event_releaseStoreFaults _)

theorem State.event_monitorLive : s.Event s.monitorLive := .of_frame

theorem State.event_monitorSuspend : s.Event s.monitorSuspend := .of_frame

theorem State.event_clearGroupFaults (a : Fin 3) : s.Event (s.clearGroupFaults a) := by
  unfold State.clearGroupFaults
  exact .andThen (.ite (State.event_handLive _) (.refl _)) (.ite (s.event_handLive _) (.refl s))

theorem State.event_clearStoreFlags : s.Event s.clearStoreFlags :=
  .foldl _ (fun s d => (s.after_modDeck d (fun x => { x with storeFlag := false }) fun _ => le_rfl).event) _ s

theorem State.event_clearLatched : s.Event s.clearLatched := .andThen State.event_clearStoreFlags (s.event_modGroups _)

theorem State.event_clearMonitor : s.Event s.clearMonitor :=
  .andThen State.event_clearTimers (.andThen (State.event_modGroups _) (.andThen State.event_clearLatched
    (.foldl State.clearGroupFaults (fun s a => s.event_clearGroupFaults a) _ s)))

/-! ### Timebase -/

theorem Clock.Ok.reject {c : Clock} (h : c.Ok) : c.reject.Ok :=
  ⟨h.1, h.2.1, h.2.2.1, h.2.2.2.1, h.2.2.2.2.1, Nat.min_le_left _ _⟩

theorem State.event_reject : s.Event { s with clock := s.clock.reject } := State.event_clock _ rfl rfl Clock.Ok.reject

theorem State.event_closeWindow : s.Event s.closeWindow := .andThen (State.event_cancelInterval _) (State.event_clock _ rfl rfl id)

theorem State.event_windowExpired : s.Event s.windowExpired :=
  .ite (.andThen State.event_closeWindow State.event_reject) State.event_closeWindow

theorem State.event_timePulseAt : s.Event s.timePulseAt := by
  rw [State.timePulseAt_eq]
  refine .andThen (State.event_setInterval _ _) (State.event_clock _ rfl rfl fun h => ?_)
  refine ⟨h.1, h.2.1, h.2.2.1, h.2.2.2.1, h.2.2.2.2.1, ?_⟩
  have := h.2.2.2.2.2
  dsimp only
  split <;> omega

theorem State.event_labelGapAt : s.Event s.labelGapAt := by
  unfold State.labelGapAt
  dsimp only
  have h := s.event_cancelInterval .labelGap
  split
  · exact .andThen (State.event_clock _ rfl rfl fun k => ⟨k.1, k.2.1, Nat.zero_le _, k.2.2.2⟩) h
  · exact .andThen (State.event_clock _ rfl rfl id) h
  · exact h
  · exact h

theorem State.event_slewRunAt : s.Event s.slewRunAt := .ite (State.event_clock _ rfl rfl id) (.refl s)

/-! ### Cue bus -/

theorem CueBus.remove_queue_le (b : CueBus) (o : Nat) (h : b.queue.length ≤ 8) : (b.remove o).queue.length ≤ 8 :=
  (List.length_filter_le _ _).trans h

theorem CueBus.endAttempt_queue_le (b : CueBus) (h : b.queue.length ≤ 8) : b.endAttempt.queue.length ≤ 8 := by
  unfold CueBus.endAttempt
  dsimp only
  split
  · exact h
  · exact (replaceStatus_length _ _).le.trans h

theorem CueBus.leave_queue_le (b : CueBus) (o : Nat) (h : b.queue.length ≤ 8) : (b.leave o).queue.length ≤ 8 := by
  unfold CueBus.leave
  dsimp only
  split
  · exact b.remove_queue_le o h
  · exact (CueBus.handPlain_keeps _ _).2 (b.remove_queue_le o h)

theorem State.event_toldDropped (n : Notice) : s.Event (s.toldDropped n) := .ite State.event_unoffer State.after_judgeOffer.event

theorem State.event_endFlown : s.Event s.endFlown := by
  unfold State.endFlown
  split
  · exact State.event_modBus _ CueBus.endAttempt_queue_le
  · exact .ite (.andThen (State.event_toldDropped _) (State.event_modBus _ fun b h => b.leave_queue_le _ h))
      (State.event_modBus _ CueBus.endAttempt_queue_le)

theorem State.event_judgeQuiet : s.Event s.judgeQuiet :=
  .ite (.andThen (State.event_setInterval _ _) (State.event_modBus _ fun _ => id)) (.refl s)

theorem State.event_endFlag : s.Event s.endFlag := by
  unfold State.endFlag
  split
  · exact .andThen State.event_judgeQuiet (.andThen State.event_endFlown (State.event_modBus _ fun _ => id))
  all_goals exact .refl s

theorem State.event_bitErrorAt : s.Event s.bitErrorAt := by
  unfold State.bitErrorAt
  split
  · exact .refl s
  · exact State.event_modBus _ fun b h => by simpa only [CueBus.countError, CueBus.flag, List.length_map] using h

theorem State.event_sentAsRun : s.Event s.sentAsRun := by
  refine .andThen State.after_judgeOffer.event (State.event_log _ fun h => ⟨?_, h.2⟩)
  exact (List.drop_sublist _ _).length_le.trans h.1

theorem State.event_frameCompleteAt : s.Event s.frameCompleteAt := by
  unfold State.frameCompleteAt
  split
  · exact .refl s
  · exact .ite (.andThen State.event_sentAsRun (State.event_modBus _ fun b h => b.leave_queue_le _ h))
      (.andThen State.after_judgeOffer.event (State.event_modBus _ fun b h => b.leave_queue_le _ h))

theorem State.event_quietExpired : s.Event s.quietExpired := by
  refine .andThen (State.event_modBus _ fun b h => ?_) (s.event_cancelInterval _)
  split
  · simpa only [List.length_map] using h
  · exact h

theorem CueBus.lineIdle_queue (b : CueBus) : b.lineIdle.queue = b.queue := by
  unfold CueBus.lineIdle
  split <;> rfl

theorem State.event_lineIdleAt : s.Event s.lineIdleAt :=
  .andThen (State.event_modBus _ fun b h => by rwa [b.lineIdle_queue]) State.event_endFlag

theorem CueBus.begin_queue (b : CueBus) : b.begin_.queue = b.queue := by
  unfold CueBus.begin_
  split <;> rfl

theorem CueBus.loseArbitration_queue_le (b : CueBus) (h : b.queue.length ≤ 8) : b.loseArbitration.queue.length ≤ 8 := by
  unfold CueBus.loseArbitration
  split
  · exact h
  · exact b.endAttempt_queue_le h

end Sys2Proof.Machine
end


section
/-! Every command keeps the queue of commands and the limits; every event of a sample period leaves air time alone (O1 to O4, O11). -/

namespace Sys2Proof.Machine

variable {s t u : State}

/-! ### Pair controller -/

theorem State.event_announceDucks (w : Bool) : s.Event (s.announceDucks w) := by
  refine .foldl _ (fun s d => ?_) _ s
  split
  · exact .refl s
  · exact s.event_hand _

theorem State.event_announceTaken : s.Event s.announceTaken := .andThen (State.event_setInterval _ _) (s.event_hand _)

theorem State.event_announceItem (d : DeckNo) : s.Event (s.announceItem d) := by
  unfold State.announceItem
  dsimp only
  split
  · split
    · exact .refl s
    · exact .andThen (State.After.event (State.after_modRecord _ _ fun _ => rfl)) (s.event_hand _)
  · exact .refl s

theorem State.event_answerSetAside : s.Event s.answerSetAside :=
  .andThen (State.after_emit _).event (State.event_records _ fun _ => rfl)

theorem State.event_pair (p : Pair) : s.Event { s with pair := p } := .of_frame

theorem State.event_takeAir : s.Event s.takeAir := by
  refine .andThen State.event_answerSetAside (.andThen (.foldl State.announceItem (fun s d => s.event_announceItem d) _ _)
    (.andThen State.event_announceTaken (.andThen (State.event_announceDucks _) (.andThen State.event_monitorLive
    (.andThen (State.event_modGate _ fun g h => ?_) (.andThen (State.event_cancelInterval _) (.andThen (State.event_cancelInterval _)
    (State.event_pair _))))))))
  rwa [g.openRequest_weight]

/-- The pair controller moves the gate. -/
theorem State.event_pair_gate (p : Pair) (g : Gate) (h : s.mix.gate.weight ≤ 960 → g.weight ≤ 960) :
    s.Event { s with pair := p, mix := { s.mix with gate := g } } :=
  ⟨⟨rfl, fun k => ⟨k.clock, k.order, k.log, k.queue, h k.gate, k.peers, k.ducks, k.bases⟩⟩, rfl, rfl, rfl⟩

theorem State.event_yield : s.Event s.yield :=
  State.event_pair_gate _ _ fun h => by rwa [Gate.closeRequest_weight]

theorem State.event_stopYield : s.Event s.stopYield :=
  .andThen State.event_announceTaken (.andThen (State.event_modGate Gate.openRequest fun g h => by rwa [g.openRequest_weight])
    (State.event_pair _))

theorem State.event_markYielded : s.Event s.markYielded :=
  State.event_records _ fun r => by split <;> rfl

theorem State.event_yieldToShadowAt : s.Event s.yieldToShadowAt := by
  unfold State.yieldToShadowAt
  refine .ite ?_ (.refl s)
  exact .andThen State.event_markYielded (.andThen (State.event_announceDucks _) (.andThen State.event_monitorSuspend
    (.andThen (State.event_pair_gate _ _ fun _ => Nat.zero_le _)
    (.andThen (State.event_releaseStoreFaults _) State.event_monitorWindowAt))))

theorem State.event_partnerIsLive : s.Event s.partnerIsLive :=
  .ite (.andThen (State.event_cancelInterval _) (State.event_pair _)) (.refl s)

theorem State.event_partnerTaken (q : Station) : s.Event (s.partnerTaken q) :=
  .ite (.ite (.refl s) (.ite State.event_announceTaken State.event_yield)) State.event_partnerIsLive

theorem State.event_partnerDeadAir : s.Event s.partnerDeadAir := .ite State.event_takeAir (.refl s)

theorem State.event_partnerLost : s.Event s.partnerLost := by
  unfold State.partnerLost
  split
  · exact State.event_takeAir
  · exact .ite State.event_stopYield (.refl s)
  · exact .refl s

theorem State.event_takeForSelf : s.Event s.takeForSelf := by
  unfold State.takeForSelf
  split
  · exact State.event_takeAir
  · exact State.event_takeAir
  · exact .refl s

theorem State.event_listenFired : s.Event s.listenFired :=
  .andThen (.ite State.event_takeAir (.refl _)) (s.event_cancelInterval _)

theorem State.event_absentWatchFired : s.Event s.absentWatchFired :=
  .andThen (.ite State.event_takeAir (.refl _)) (s.event_cancelInterval _)

/-! ### Peer table -/

theorem keepSeven_length {α : Type} (l : List α) : (keepSeven l).length ≤ 7 := by
  simp only [keepSeven, List.length_drop]; omega

theorem keepSeven_append_length {α : Type} (l : List α) (x : α) : (keepSeven l ++ [x]).length ≤ 8 := by
  have := keepSeven_length l
  simp only [List.length_append, List.length_cons, List.length_nil]; omega

theorem Peer.Ok.start {p : Peer} (h : p.Ok) (f : StartFields) (n : Nat) : (p.start f n).Ok := by
  obtain ⟨hitems, hended, hducks⟩ := h
  obtain ⟨kended, kducks, -, -⟩ := p.start_frame f n
  refine ⟨?_, kended ▸ (List.length_filter_le _ _).trans hended, kducks ▸ hducks⟩
  by_cases hk : ∃ i ∈ p.items, i.tag = f.tag.toNat
  · rw [Peer.items_start_known hk, List.length_map]; exact hitems
  · rw [Peer.items_start_new fun i hi ht => hk ⟨i, hi, ht⟩]
    exact keepSeven_append_length _ _

theorem Peer.Ok.segue {p : Peer} (h : p.Ok) (f : SegueFields) (n : Nat) : (p.segue f n).Ok := by
  obtain ⟨hitems, hended, hducks⟩ := h
  obtain ⟨kended, kducks, -, -⟩ := p.segue_frame f n
  refine ⟨?_, kended ▸ hended, kducks ▸ hducks⟩
  by_cases hk : ∃ i ∈ p.items, i.tag = f.tag.toNat
  · rw [Peer.items_segue_known hk, List.length_map]; exact hitems
  · rw [Peer.items_segue_new fun i hi ht => hk ⟨i, hi, ht⟩]
    exact keepSeven_append_length _ _

theorem Peer.Ok.finish {p : Peer} (h : p.Ok) (tag : Nat) : (p.finish tag).Ok := by
  refine ⟨(List.length_filter_le _ _).trans h.1, ?_, h.2.2⟩
  rw [Peer.ended_finish]
  split
  · exact h.2.1
  · exact keepSeven_append_length _ _

theorem Peer.Ok.duck {p : Peer} (h : p.Ok) (f : DuckFields) : (p.duck f).Ok := by
  rw [Peer.duck_eq]
  refine ⟨h.1, h.2.1, ?_⟩
  dsimp only
  split
  · exact (List.length_filter_le _ _).trans h.2.2
  · exact keepSeven_append_length _ _

theorem Peer.Ok.fault {p : Peer} (h : p.Ok) (f : FaultFields) : (p.fault f).Ok := by
  unfold Peer.fault
  split <;> exact h

theorem State.event_nextStamp : s.Event s.nextStamp :=
  ⟨⟨rfl, fun k => ⟨k.clock, k.order, k.log, k.queue, k.gate, k.peers, k.ducks, k.bases⟩⟩, rfl, rfl, rfl⟩

theorem State.event_emit (ts : List Task) : s.Event (s.emit ts) := (s.after_emit ts).event

theorem State.event_tableStart (q : Station) (f : StartFields) : s.Event (s.tableStart q f) :=
  .andThen (State.event_emit _) (.andThen State.event_nextStamp (State.event_modPeer _ _ fun _ h => h.start f _))

theorem State.event_tableSegue (q : Station) (f : SegueFields) : s.Event (s.tableSegue q f) :=
  .andThen (State.event_emit _) (.andThen State.event_nextStamp (State.event_modPeer _ _ fun _ h => h.segue f _))

theorem State.event_tableEnd (q : Station) (f : EndFields) : s.Event (s.tableEnd q f) :=
  .andThen (State.event_emit _) (State.event_modPeer _ _ fun _ h => h.finish _)

theorem State.event_tableDuck (q : Station) (f : DuckFields) : s.Event (s.tableDuck q f) := State.event_modPeer _ _ fun _ h => h.duck f

theorem State.event_tableFault (q : Station) (f : FaultFields) : s.Event (s.tableFault q f) :=
  .ite (.andThen (.ite State.event_partnerDeadAir (.refl _)) (State.event_modPeer _ _ fun _ h => h.fault f)) (.refl s)

theorem State.event_tableStatus (q : Station) (f : StatusFields) : s.Event (s.tableStatus q f) := by
  have h := s.event_modPeer q (fun p => p.status f) fun _ h => h
  refine .ite (.ite (.andThen State.event_partnerDeadAir ?_) ?_) h <;>
    exact .andThen (.ite State.event_partnerIsLive (.refl _)) h

theorem State.event_tableTaken (q : Station) : s.Event (s.tableTaken q) := by
  have h := s.event_modPeer q (fun p => { p with role := some .live }) fun _ h => h
  exact .ite (.andThen (State.event_partnerTaken q) h) h

theorem State.event_loseStation (q : Station) : s.Event (s.loseStation q) :=
  .andThen (State.after_coupleLost q).event (.andThen
    (State.event_modPeer q _ fun _ _ => ⟨Nat.zero_le _, Nat.zero_le _, Nat.zero_le _⟩) (s.event_cancelInterval _))

theorem State.event_peerLossFired (q : Station) : s.Event (s.peerLossFired q) := by
  have h : s.Event (s.loseStation q).settleWork := .andThen State.after_settleWork.event (s.event_loseStation q)
  exact .ite (.andThen State.event_partnerLost h) h

/-! ### What is heard -/

theorem State.event_onHearing (h : Header) : s.Event (s.onHearing h) :=
  .andThen (State.event_setInterval _ _) (.andThen (State.event_modPeer _ _ fun _ h => h) (State.event_modBus _ fun _ => id))

/-- A frame on the line, whatever its notice does. -/
theorem State.event_heard (h : Header) (act : State → State) (hact : ∀ s : State, s.Event (act s)) : s.Event (s.heard h act) := by
  have htake : s.Event (s.takeFrame h act) :=
    .ite (.andThen (State.event_modBus _ fun _ => id) (State.event_modBus _ fun _ => id)) (.andThen (hact _) (s.event_onHearing h))
  unfold State.heard
  split
  · exact htake
  · exact htake
  · exact State.event_modBus _ fun _ => id
  · exact .refl s
  · exact .refl s

theorem State.event_addressed (h : Header) (act : State → State) (hact : ∀ s : State, s.Event (act s)) :
    s.Event (s.addressed h act) :=
  .ite (.ite (hact s) (State.event_modBus _ fun _ => id)) (.refl s)

theorem State.event_heard_addressed (h : Header) (act : State → State) (hact : ∀ s : State, s.Event (act s)) :
    s.Event (s.heard h fun s => s.addressed h act) := s.event_heard h _ fun s => s.event_addressed h act hact

/-! ### Addressed notices -/

/-- What passes the tests of a LOAD finds room, and its tag is new (R36). -/
theorem State.loadRefusal_none {f : LoadFields} (h : s.loadRefusal f = none) :
    s.find f.tag.toNat = none ∧ s.records.length < 48 := by
  have hlast {b : Bool} (k : (if b = true then some Reason.badField else if (s.find f.tag.toNat).isSome then some .duplicate
      else if 48 ≤ s.records.length then some .full else none) = none) : s.find f.tag.toNat = none ∧ s.records.length < 48 := by
    split at k
    · cases k
    split at k
    · cases k
    rename_i hfind
    split at k
    · cases k
    exact ⟨by simpa using hfind, by omega⟩
  unfold State.loadRefusal at h
  dsimp only at h
  by_cases hres : f.tag.toNat = 0 ∨ 65280 ≤ f.tag.toNat
  · rw [if_pos hres] at h
    cases h
  · rw [if_neg hres] at h
    exact hlast h

theorem State.event_acceptLoad (r : CueRecord) (before : Nat) (hr : s.find r.tag = none) (hl : s.records.length < 48) :
    s.Event (s.acceptLoad r before) := by
  have hins : s.Event { s with records := insertBefore before r s.records } :=
    ⟨⟨rfl, fun k => ⟨k.clock, k.order.insert hl hr (insertBefore_perm before r s.records), k.log, k.queue, k.gate, k.peers, k.ducks,
      k.bases⟩⟩, rfl, rfl, rfl⟩
  exact .andThen (State.event_emit _) (.andThen (State.after_setAirOpt _ _).event (.andThen (State.after_setAirOpt _ _).event
    (.andThen (State.after_askRecordFetch _ _).event hins)))

theorem State.event_takeLoad (f : LoadFields) : s.Event (s.takeLoad f) := by
  unfold State.takeLoad
  split
  · exact (s.after_storeAsRun _).event
  · rename_i hnone _
    obtain ⟨hfind, hlen⟩ := State.loadRefusal_none hnone
    exact s.event_acceptLoad _ _ hfind hlen
  · exact .refl s

theorem State.event_setLevel (f : LevelFields) : s.Event (s.setLevel f) := by
  have h : (s.mix.setLevel f.group.toNat (readLevel f.level)).gate = s.mix.gate
      ∧ (s.mix.setLevel f.group.toNat (readLevel f.level)).duckBase = s.mix.duckBase := by
    unfold Mix.setLevel
    split
    · exact ⟨rfl, rfl⟩
    · split <;> exact ⟨rfl, rfl⟩
  exact .of_frame (hgate := h.1) (hbases := h.2)

theorem State.event_setEntry (e : EntryNo) (x : BreakEntry) : s.Event (s.setEntry e x) := (s.after_setEntry e x).event

theorem State.event_modReader (f : StoreReader → StoreReader) : s.Event (s.modReader f) := (s.after_modReader f).event

theorem State.event_setAir (h : AirHandle) (n : Nat) : s.Event (s.setAir h n) := (s.after_setAir h n).event

theorem State.event_wantFill (e : EntryNo) : s.Event (s.wantFill e) :=
  .andThen (State.after_askFillFetch e).event (s.event_setEntry e _)

theorem State.event_declare (e : EntryNo) (id : Nat) (g : Group) (r : Nat) (fill : Option Nat) : s.Event (s.declare e id g r fill) :=
  .andThen (State.event_emit _) (.andThen (State.event_setAir _ _) (.andThen (.ite (State.event_wantFill e) (.refl _))
    (s.event_setEntry e _)))

theorem State.event_changeFill (e : EntryNo) (fill : Option Nat) : s.Event (s.changeFill e fill) := by
  refine .andThen (.ite (State.event_modReader _) (.ite ?_ (.ite (State.after_askFillFetch e).event (.refl _)))) (s.event_setEntry e _)
  cases fill with
  | some c => exact State.event_modReader _
  | none => exact (State.after_withdrawFetch _).event

theorem State.event_redeclare (e : EntryNo) (r : Nat) (fill : Option Nat) : s.Event (s.redeclare e r fill) :=
  .andThen (State.event_emit _) (.andThen (.ite (.refl _) (State.event_changeFill e fill)) (.andThen (State.event_setAir _ _)
    (s.event_setEntry e _)))

theorem State.event_takeBreak (f : BreakFields) : s.Event (s.takeBreak f) := by
  unfold State.takeBreak
  dsimp only
  split
  · exact .refl s
  · refine .ite (.refl s) ?_
    split
    · exact .ite (.refl s) (s.event_redeclare _ _ _)
    · split
      · exact .of_frame
      · exact s.event_declare _ _ _ _ _

theorem State.event_breaks (b : Breaks) : s.Event { s with breaks := b } := .of_frame

theorem State.event_clearBreaks : s.Event s.clearBreaks := by
  unfold State.clearBreaks
  refine .andThen (State.event_breaks _) (.foldl _ (fun s e => ?_) _ s)
  exact .andThen (State.after_cancelAir _).event (.andThen (State.after_cancelAir _).event (s.after_cancelAir _).event)

theorem State.event_takeClear : s.Event s.takeClear :=
  .andThen State.event_clearMonitor (.andThen State.event_clearBreaks
    (.andThen (.foldl State.withdrawDuck (fun s d => (s.after_withdrawDuck d).event) _ _)
    (.andThen State.after_clearReader.event (.andThen State.after_clearRecords.event State.event_monitorWindowAt))))

/-! ### A notice by its kind -/

theorem State.event_hearLoad (h : Header) (f : LoadFields) : s.Event (s.hearLoad h f) :=
  s.event_heard_addressed h _ fun s => s.event_takeLoad f

theorem State.event_hearDrop (h : Header) (tag : Nat) : s.Event (s.hearDrop h tag) :=
  s.event_heard_addressed h _ fun s => (s.after_takeDrop tag).event

theorem State.event_hearClear (h : Header) : s.Event (s.hearClear h) :=
  s.event_heard_addressed h _ fun _ => State.event_takeClear

theorem State.event_hearGo (h : Header) (g : Nat) : s.Event (s.hearGo h g) :=
  s.event_heard_addressed h _ fun s => (s.after_takeGo g).event

theorem State.event_hearLevel (h : Header) (f : LevelFields) : s.Event (s.hearLevel h f) :=
  s.event_heard_addressed h _ fun s => s.event_setLevel f

theorem State.event_hearBreak (h : Header) (f : BreakFields) : s.Event (s.hearBreak h f) :=
  s.event_heard_addressed h _ fun s => s.event_takeBreak f

theorem State.event_hearTake (h : Header) : s.Event (s.hearTake h) :=
  s.event_heard_addressed h _ fun s => .ite State.event_takeForSelf (.refl s)

theorem State.event_hearClearFaults (h : Header) : s.Event (s.hearClearFaults h) :=
  s.event_heard_addressed h _ fun _ => .andThen (State.event_modBus _ fun _ => id)
    (.andThen State.event_clearLatched State.event_monitorWindowAt)

theorem State.event_hearStart (h : Header) (f : StartFields) : s.Event (s.hearStart h f) :=
  s.event_heard h _ fun s => s.event_tableStart _ f

theorem State.event_hearSegue (h : Header) (f : SegueFields) : s.Event (s.hearSegue h f) :=
  s.event_heard h _ fun s => s.event_tableSegue _ f

theorem State.event_hearEnd (h : Header) (f : EndFields) : s.Event (s.hearEnd h f) :=
  s.event_heard h _ fun s => s.event_tableEnd _ f

theorem State.event_hearDuck (h : Header) (f : DuckFields) : s.Event (s.hearDuck h f) :=
  s.event_heard h _ fun s => s.event_tableDuck _ f

theorem State.event_hearFault (h : Header) (f : FaultFields) : s.Event (s.hearFault h f) :=
  s.event_heard h _ fun s => s.event_tableFault _ f

theorem State.event_hearStatus (h : Header) (f : StatusFields) : s.Event (s.hearStatus h f) :=
  s.event_heard h _ fun s => s.event_tableStatus _ f

theorem State.event_hearTaken (h : Header) : s.Event (s.hearTaken h) := s.event_heard h _ fun s => s.event_tableTaken _

theorem State.event_hearAsrun (h : Header) : s.Event (s.hearAsrun h) := s.event_heard h _ .refl

theorem State.event_hearNotice (h : Header) (n : Notice) : s.Event (s.hearNotice h n) := by
  cases n with
  | take => exact s.event_hearTake h
  | taken => exact s.event_hearTaken h
  | fault f => exact s.event_hearFault h f
  | start f => exact s.event_hearStart h f
  | segue f => exact s.event_hearSegue h f
  | finish f => exact s.event_hearEnd h f
  | go g => exact s.event_hearGo h _
  | level f => exact s.event_hearLevel h f
  | duck f => exact s.event_hearDuck h f
  | clearFaults => exact s.event_hearClearFaults h
  | load f => exact s.event_hearLoad h f
  | drop t => exact s.event_hearDrop h _
  | clear => exact s.event_hearClear h
  | declareBreak f => exact s.event_hearBreak h f
  | status f => exact s.event_hearStatus h f
  | asrun f => exact s.event_hearAsrun h

theorem State.event_discardFrame : s.Event s.discardFrame := by
  have h : s.Event s.toWaitIdle := State.event_modBus _ fun _ => id
  unfold State.discardFrame
  split
  · exact h
  · exact h
  · exact h
  · exact .refl s
  · exact .refl s

theorem State.event_hearBits (b : List BusBit) : s.Event (s.hearBits b) := by
  unfold State.hearBits
  split
  · exact State.event_discardFrame
  · exact State.event_discardFrame
  · exact State.event_discardFrame
  · exact State.event_discardFrame
  · split
    · exact s.event_heard _ _ .refl
    · exact s.event_hearNotice _ _

/-! ### Events of a sample period -/

theorem State.event_finish : s.Event s.finish := State.after_finish.event

/-- A reaction's state is finished. -/
theorem State.Event.finish (h : s.Event t) : s.Event t.finish := h.trans State.event_finish

theorem State.event_airEvent (h : AirHandle) : s.Event (s.airEvent h) := by
  unfold State.airEvent
  split
  · exact .refl s
  · refine .finish (.andThen (.foldl _ (fun s y => ?_) _ _) (s.after_deliver _).event)
    exact .andThen (State.after_deliver y).event State.after_settleWork.event

theorem State.event_guardsFirst : s.Event s.guardsFirst := .foldl _ (fun s e => s.event_airEvent (.rejoin e)) _ s

theorem State.event_moveReport : s.Event s.moveReport := by
  unfold State.moveReport
  split
  · exact .refl s
  · exact .of_frame

theorem State.event_beaconFired : s.Event s.beaconFired := by
  unfold State.beaconFired
  exact .andThen (State.event_hand _) (.andThen State.event_moveReport (s.event_setInterval _ _))

theorem State.event_statusBeaconAt : s.Event s.statusBeaconAt := by
  unfold State.statusBeaconAt
  exact State.event_guardsFirst.trans State.event_beaconFired

theorem State.event_startUpListenFired : s.Event s.startUpListenFired := by
  refine .andThen (State.event_modBus _ fun b h => ?_) (s.event_cancelInterval _)
  split <;> exact h

theorem State.event_pairFirst : s.Event s.pairFirst := by
  unfold State.pairFirst
  exact .andThen (.ite State.event_absentWatchFired.finish (.refl _)) (.ite State.event_listenFired.finish (.refl s))

theorem State.event_intervalFired (i : IntervalHandle) : s.Event (s.intervalFired i) := by
  cases i with
  | labelWindow => exact State.event_windowExpired
  | labelGap => exact State.event_labelGapAt
  | readTimeout => exact State.after_readTimeoutAt.event
  | beacon => exact State.event_statusBeaconAt
  | startUpListen => exact State.event_startUpListenFired
  | listen => exact State.event_listenFired
  | absentWatch => exact State.event_absentWatchFired
  | takenWindow => exact s.event_cancelInterval _
  | quiet => exact State.event_quietExpired
  | peerLoss q => exact s.event_peerLossFired q

theorem State.event_gateOpenAt : s.Event s.gateOpenAt := .ite (State.event_modGate _ fun _ => id) (.refl s)

theorem State.event_gateClosedAt : s.Event s.gateClosedAt :=
  .ite (.andThen (State.event_pair _) (State.event_modGate (fun g => { g with state := .closed }) fun _ => id)) (.refl s)

/-- An event at a deck is one of the seven of R66 and R82. -/
theorem State.after_deckEvent {d : DeckNo} (h : s.deckEvent d = some t) : s.After t := by
  unfold State.deckEvent at h
  dsimp only at h
  split at h
  · cases h; exact s.after_blockEnteredAt d
  split at h
  · cases h; exact s.after_fadeInEndAt d
  split at h
  · cases h; exact s.after_fadeMarkAt d
  split at h
  · cases h; exact s.after_truncBeginAt d
  split at h
  · cases h; exact s.after_segueMarkAt d
  split at h
  · cases h; exact s.after_itemEndAt d
  split at h
  · cases h; exact s.after_skipSilentAt d
  · cases h

theorem State.event_firstDue (h : s.firstDue = some t) : s.Event t := by
  unfold State.firstDue at h
  split at h
  · cases h; exact State.event_gateOpenAt
  split at h
  · cases h; exact State.event_gateClosedAt
  split at h
  · cases h; exact State.event_monitorWindowAt
  split at h
  · cases h; exact State.event_yieldToShadowAt
  split at h
  · cases h; exact State.event_slewRunAt
  split at h
  · cases h; exact s.event_intervalFired _
  split at h
  · cases h; exact (s.after_deliver _).event
  split at h
  · rename_i hd
    cases h
    obtain ⟨d, -, hd⟩ := List.exists_of_findSome?_eq_some hd
    exact (State.after_deckEvent hd).event
  split at h
  · cases h; exact State.event_controlPeriodAt
  · cases h

/-- Whatever falls due in a sample period, its events are events. -/
theorem State.event_takeDue (n : Nat) (s : State) : s.Event (s.takeDue n) := by
  induction n generalizing s with
  | zero => exact .refl s
  | succ n ih =>
    simp only [State.takeDue]
    split
    · exact .refl s
    · rename_i hd
      exact .andThen (ih _) (State.event_firstDue hd).finish

theorem State.event_closePeriod : s.Event s.closePeriod :=
  .andThen State.event_closeFaults (.andThen State.event_endFlag State.event_settleControl)

/-! ### The frames leave and every count moves on -/

theorem State.event_markUnderrun (d : DeckNo) : s.Event (s.markUnderrun d) := by
  unfold State.markUnderrun
  dsimp only
  split
  · exact .ite (State.After.event (s.after_modRecord _ _ fun _ => rfl)) (.refl s)
  · exact .refl s

theorem State.event_recordWindow (a : Fin 3) (g : Group) (f : StereoFrame) : s.Event (s.recordWindow a g f) := s.event_setGroup a _

theorem State.event_out (o : Option Outputs) : s.Event { s with out := o } := .of_frame

theorem State.event_stepTimers : s.Event s.stepTimers := .of_frame

theorem State.event_mixOut : s.Event s.mixOut := by
  unfold State.mixOut
  dsimp only
  exact .andThen (State.event_out _) (.andThen (State.event_recordWindow _ _ _) (.andThen (State.event_recordWindow _ _ _)
    (.andThen (State.event_recordWindow _ _ _) (State.event_modGate Gate.move Gate.move_weight_le))))

theorem Deck.advance_duckValue (x : Deck) (live : Bool) : (x.advance live).duckValue = x.duckValue := by
  unfold Deck.advance
  split <;> rfl

theorem State.deck_advanceDecks (s : State) (d : DeckNo) : s.advanceDecks.deck d = (s.deck d).advance s.isLive := by
  revert d
  simp [State.advanceDecks, State.deck, Fin.forall_fin_succ]

theorem State.event_advanceDecks : s.Event s.advanceDecks :=
  ⟨⟨rfl, fun k => ⟨k.clock, k.order, k.log, k.queue, k.gate, k.peers, fun d => by
    rw [State.deck_advanceDecks, Deck.advance_duckValue]; exact k.ducks d, k.bases⟩⟩, rfl, rfl, rfl⟩

theorem State.event_endControl : s.Event s.endControl := .ite .of_frame (.refl s)

/-- The sample period before its counts move on: the frames have left, windows and timers are recorded, and the decks have advanced. -/
def State.mixed (s : State) : State := (allDecks.foldl State.markUnderrun s).mixOut.stepTimers.advanceDecks.endControl

theorem State.event_mixed : s.Event s.mixed := by
  unfold State.mixed
  exact .andThen State.event_endControl (.andThen State.event_advanceDecks (.andThen State.event_stepTimers
    (.andThen State.event_mixOut (.foldl State.markUnderrun (fun s d => s.event_markUnderrun d) _ s))))

theorem State.tick_eq (s : State) : s.tick = { s.mixed with
    clock := s.mixed.clock.advance
    monitor := { s.mixed.monitor with full := s.mixed.monitor.full || decide (s.mixed.period % 480 = 0) }
    period := s.mixed.period + 1 } := rfl

theorem State.tick_period (s : State) : s.tick.period = s.mixed.period + 1 := rfl

theorem State.tick_clock (s : State) : s.tick.clock = s.mixed.clock.advance := rfl

theorem Clock.Ok.advance {c : Clock} (h : c.Ok) : c.advance.Ok := by
  obtain ⟨hair, hday, hrest⟩ := h
  refine ⟨?_, ?_, hrest⟩
  · unfold Clock.advance
    dsimp only
    split
    · assumption
    · decide
  · unfold Clock.advance
    dsimp only
    split <;> omega

theorem State.Limits.withTime (k : s.Limits) {c : Clock} (hc : c.Ok) (m : Monitor) (p : Nat) :
    ({ s with clock := c, monitor := m, period := p } : State).Limits :=
  ⟨hc, k.order, k.log, k.queue, k.gate, k.peers, k.ducks, k.bases⟩

theorem State.keeps_tick : s.Keeps s.tick := by
  have h := s.event_mixed
  rw [State.tick_eq]
  exact ⟨h.pending, fun k => (h.limits k).withTime (h.limits k).clock.advance _ _⟩

/-! ### Labels -/

theorem Clock.Ok.slew {c : Clock} (h : c.Ok) (e : Int) : (c.slew e).Ok := by
  unfold Clock.slew
  split <;> exact h

theorem Clock.Ok.correctTrim {c : Clock} (h : c.Ok) (d : Option Int) : (c.correctTrim d).Ok := by
  obtain ⟨hair, hday, hgood, hlow, hhigh, hrej⟩ := h
  unfold Clock.correctTrim
  split
  · exact ⟨hair, hday, hgood, hlow, hhigh, hrej⟩
  · split
    · exact ⟨hair, hday, hgood, by unfold clampInt; dsimp only; omega, by unfold clampInt; dsimp only; omega, hrej⟩
    · exact ⟨hair, hday, hgood, hlow, hhigh, hrej⟩

theorem Clock.Ok.slewLabel {c : Clock} (h : c.Ok) (l : Label) : (c.slewLabel l).Ok := by
  obtain ⟨hair, -, hrest⟩ := (h.slew l.error).correctTrim l.drift
  refine ⟨hair, ?_, hrest⟩
  unfold Clock.slewLabel shiftDay
  dsimp only
  omega

theorem Clock.Ok.stepBy {c : Clock} (h : c.Ok) (e : Int) (d r : Nat) : (c.stepBy e d r).Ok := by
  obtain ⟨-, -, hrest⟩ := h
  refine ⟨?_, ?_, hrest⟩
  · unfold Clock.stepBy dayLength
    dsimp only
    omega
  · unfold Clock.stepBy
    dsimp only
    omega

/-- The good count changes within 3. -/
theorem Clock.Ok.withGood {c : Clock} (h : c.Ok) {g : Nat} (hg : g ≤ 3) (st : ClockState) (o : Bool) :
    ({ c with good := g, state := st, offset := o } : Clock).Ok := ⟨h.1, h.2.1, hg, h.2.2.2⟩

theorem Clock.Ok.acquireLabel {c : Clock} (h : c.Ok) (l : Label) (b : Bool) : (c.acquireLabel l b).1.Ok := by
  unfold Clock.acquireLabel
  dsimp only
  split
  · exact (h.slewLabel l).withGood (Nat.min_le_left _ _) _ _
  split
  · exact (h.slewLabel l).withGood (Nat.zero_le _) _ _
  split
  · exact (h.slewLabel l).withGood (Nat.zero_le _) _ _
  · exact (h.stepBy _ _ _).withGood (Nat.zero_le _) _ _

theorem Clock.Ok.toAcquire {c : Clock} (h : c.Ok) : c.toAcquire.Ok := h.withGood (Nat.zero_le _) _ _

theorem Clock.Ok.handleLabel {c : Clock} (h : c.Ok) (l : Label) (b : Bool) : (c.handleLabel l b).1.Ok := by
  unfold Clock.handleLabel
  split
  · split
    · exact h.toAcquire.acquireLabel l true
    · exact h.toAcquire.stepBy _ _ _
  · exact h.acquireLabel l b
  · split
    · exact h.slewLabel l
    · exact h.toAcquire.acquireLabel l b
  · exact h.toAcquire.acquireLabel l b

theorem State.Keeps.trans (h : s.Keeps t) (k : t.Keeps u) : s.Keeps u := ⟨k.pending.trans h.pending, k.limits ∘ h.limits⟩

theorem State.keeps_validLabel (p : Pulse) (day : BitVec 16) (second : Nat) : s.Keeps (s.validLabel p day second) := by
  have hclose : s.Event s.slewRunAt.closeWindow := .andThen State.event_closeWindow State.event_slewRunAt
  unfold State.validLabel
  dsimp only
  refine hclose.toKeeps.trans ?_
  generalize s.slewRunAt.closeWindow = x
  have hclock (l : Option LastLabel) : x.Keeps
      { x with clock := { (x.clock.handleLabel (x.clock.measure p x.period day second) x.anySounding).1 with lastLabel := l } } :=
    ⟨rfl, fun k => ⟨k.clock.handleLabel _ _, k.order, k.log, k.queue, k.gate, k.peers, k.ducks, k.bases⟩⟩
  have hset (l : Option LastLabel) := (hclock l).trans (State.event_setInterval .labelGap 144000).toKeeps
  split
  · exact (hset _).trans (State.event_emit _).toKeeps
  · exact hset _

theorem State.keeps_timeLabelAt (day : BitVec 16) (second : Nat) : s.Keeps (s.timeLabelAt day second) := by
  unfold State.timeLabelAt
  split
  · exact State.event_reject.toKeeps
  · split
    · exact (State.Event.andThen State.event_closeWindow State.event_reject).toKeeps
    · exact s.keeps_validLabel _ _ _

/-! ### Start-up -/

theorem State.reset_limits : State.reset.Limits where
  clock := ⟨by decide, by decide, by decide, by decide, by decide, by decide⟩
  order := ⟨Nat.zero_le _, List.nodup_nil⟩
  log := ⟨Nat.zero_le _, by decide, Nat.zero_le _⟩
  queue := Nat.zero_le _
  gate := le_rfl
  peers q := by simp [State.peer, State.reset, Peer.Ok]
  ducks := by decide
  bases := by decide

theorem startGate_weight (r : RoleSetting) : (startGate r).weight ≤ 960 := by
  cases r <;> decide

theorem State.keeps_firstPeriod (c : ConfigRecord) (b : Bool) : s.Keeps (s.firstPeriod c b) :=
  ⟨rfl, fun k => ⟨k.clock, k.order, k.log, k.queue, startGate_weight _, k.peers, k.ducks, k.bases⟩⟩

theorem State.keeps_attempts (n : Nat) : s.Keeps { s with attempts := n } :=
  ⟨rfl, fun k => ⟨k.clock, k.order, k.log, k.queue, k.gate, k.peers, k.ducks, k.bases⟩⟩

theorem State.keeps_configAttempt (r : ConfigRead) : s.Keeps (s.configAttempt r) := by
  unfold State.configAttempt
  split
  · split
    · exact (s.keeps_attempts 3).trans (State.keeps_firstPeriod _ _)
    · exact s.keeps_attempts _
  · split <;> exact s.keeps_firstPeriod _ _

/-! ### Every command -/

/-- A command answers a next state that keeps what every command keeps. -/
def Taken (s : State) (a : Answer) : Prop := ∃ t, a = .next t ∧ s.Keeps t

theorem Taken.of_event {a : Answer} (h : a = .next t) (k : s.Event t) : Taken s a := ⟨t, h, k.toKeeps⟩

/-- An interval expiry's command: it fires when it is due. -/
theorem State.Event.whenDue (h : s.Event t) (i : IntervalHandle) :
    s.Event (if s.intervalDue i = true then t else s) := .ite h (.refl s)

theorem State.event_fadeMarksFirst (d : DeckNo) : s.Event (s.fadeMarksFirst d) :=
  .andThen (.ite (.andThen State.after_settleWork.event (State.after_truncBeginAt d).event) (.refl _))
    (.ite (.andThen State.after_settleWork.event (s.after_fadeMarkAt d).event) (.refl s))

theorem State.event_segueFirst (d : DeckNo) : s.Event (s.segueFirst d) :=
  .ite (.andThen State.after_settleWork.event (s.after_segueMarkAt d).event) (.refl s)

theorem execColdReset_taken (p : BitVec 4) (s : State) : Taken s (exec (.coldReset p) s) :=
  ⟨_, rfl, rfl, fun _ => have k := State.reset_limits
    ⟨k.clock, k.order, k.log, k.queue, k.gate, k.peers, k.ducks, k.bases⟩⟩

theorem execConfigAttemptEnd_taken (r : ConfigRead) (s : State) : Taken s (exec (.configAttemptEnd r) s) := by
  show Taken s (execConfigAttemptEnd r s)
  unfold execConfigAttemptEnd
  split
  · exact ⟨_, rfl, s.keeps_configAttempt r⟩
  · exact ⟨s, rfl, rfl, id⟩

/-- The commands of an engine that reads its configuration: all but two do nothing. -/
theorem exec_taken_configuring (h : s.phase = .configuring) (c : Instr) : Taken s (exec c s) := by
  obtain ⟨⟩ := s
  subst h
  cases c with
  | coldReset p => exact execColdReset_taken p _
  | configAttemptEnd r => exact execConfigAttemptEnd_taken r _
  | _ => exact ⟨_, rfl, rfl, id⟩

/-- The commands of a running engine. -/
theorem exec_taken_running (hrun : s.phase = .running) (c : Instr) : Taken s (exec c s) := by
  cases c with
  | coldReset p => exact execColdReset_taken p s
  | configAttemptEnd r => exact execConfigAttemptEnd_taken r s
  | samplePeriod =>
    exact ⟨_, exec_samplePeriod hrun, ((s.event_takeDue periodFuel).trans State.event_closePeriod).toKeeps.trans State.keeps_tick⟩
  | timeLabel day second =>
    exact ⟨_, exec_timeLabel hrun day second, (s.keeps_timeLabelAt day second).trans State.event_finish.toKeeps⟩
  | controlPeriod => exact .of_event (exec_controlPeriod hrun) State.event_controlPeriodAt
  | monitorWindow => exact .of_event (exec_monitorWindow hrun) State.event_monitorWindowAt
  | timePulse => exact .of_event (exec_timePulse hrun) State.event_timePulseAt
  | labelWindowExpiry => exact .of_event (exec_labelWindowExpiry hrun) (State.event_windowExpired.whenDue _)
  | labelGap => exact .of_event (exec_labelGap hrun) (State.event_labelGapAt.whenDue _)
  | slewRun => exact .of_event (exec_slewRun hrun) State.event_slewRunAt
  | storeCompletion n good data =>
    exact .of_event (exec_storeCompletion hrun n good data)
      (.ite (s.after_completionAt _ _).event.finish (.refl s))
  | readTimeout => exact .of_event (exec_readTimeout hrun) (State.after_readTimeoutAt.event.finish.whenDue _)
  | load h f => exact .of_event (exec_load hrun h f) (s.event_hearLoad h f).finish
  | drop h tag => exact .of_event (exec_drop hrun h tag) (s.event_hearDrop h _).finish
  | clear h => exact .of_event (exec_clear hrun h) (s.event_hearClear h).finish
  | go h g => exact .of_event (exec_go hrun h g) (s.event_hearGo h _).finish
  | level h f => exact .of_event (exec_level hrun h f) (s.event_hearLevel h f)
  | declareBreak h f => exact .of_event (exec_declareBreak hrun h f) (s.event_hearBreak h f).finish
  | take h => exact .of_event (exec_take hrun h) (s.event_hearTake h).finish
  | clearFaults h => exact .of_event (exec_clearFaults hrun h) (s.event_hearClearFaults h)
  | peerStart h f => exact .of_event (exec_peerStart hrun h f) (s.event_hearStart h f).finish
  | peerSegue h f => exact .of_event (exec_peerSegue hrun h f) (s.event_hearSegue h f).finish
  | peerEnd h f => exact .of_event (exec_peerEnd hrun h f) (s.event_hearEnd h f).finish
  | peerDuck h f => exact .of_event (exec_peerDuck hrun h f) (s.event_hearDuck h f)
  | peerFault h f => exact .of_event (exec_peerFault hrun h f) (s.event_hearFault h f).finish
  | peerStatus h f => exact .of_event (exec_peerStatus hrun h f) (s.event_hearStatus h f).finish
  | peerTaken h => exact .of_event (exec_peerTaken hrun h) (s.event_hearTaken h)
  | peerAsrun h f => exact .of_event (exec_peerAsrun hrun h f) (s.event_hearAsrun h)
  | frameNotHanded bits => exact .of_event (exec_frameNotHanded hrun bits) (s.event_hearBits bits).finish
  | frameBegin =>
    exact .of_event (exec_frameBegin hrun)
      (.andThen (State.event_modBus _ fun b h => by rwa [b.begin_queue]) State.event_pairFirst)
  | arbitrationLost => exact .of_event (exec_arbitrationLost hrun) (State.event_modBus _ CueBus.loseArbitration_queue_le)
  | bitError => exact .of_event (exec_bitError hrun) State.event_bitErrorAt
  | frameComplete => exact .of_event (exec_frameComplete hrun) State.event_frameCompleteAt
  | quietExpiry => exact .of_event (exec_quietExpiry hrun) (State.event_quietExpired.whenDue _)
  | startTimeExpiry tag => exact .of_event (exec_startTimeExpiry hrun tag) (s.event_airEvent _)
  | latestStartExpiry tag => exact .of_event (exec_latestStartExpiry hrun tag) (s.event_airEvent _)
  | scheduledStartExpiry tag => exact .of_event (exec_scheduledStartExpiry hrun tag) (s.event_airEvent _)
  | segueMark d =>
    exact .of_event (exec_segueMark hrun d)
      (.finish (.ite (.andThen (State.after_segueMarkAt d).event (s.event_fadeMarksFirst d)) (.refl s)))
  | fadeMark d => exact .of_event (exec_fadeMark hrun d) (s.after_fadeMarkAt d).event.finish
  | fadeInEnd d => exact .of_event (exec_fadeInEnd hrun d) (s.after_fadeInEndAt d).event
  | truncationFadeBegin d => exact .of_event (exec_truncationFadeBegin hrun d) (s.after_truncBeginAt d).event.finish
  | blockEntered d => exact .of_event (exec_blockEntered hrun d) (s.after_blockEnteredAt d).event.finish
  | itemEnd d =>
    exact .of_event (exec_itemEnd hrun d)
      (.finish (.ite (.andThen (State.after_itemEndAt d).event (.andThen (State.event_segueFirst d)
      (s.event_fadeMarksFirst d))) (.refl s)))
  | skipSilent d => exact .of_event (exec_skipSilent hrun d) (s.after_skipSilentAt d).event.finish
  | gateOpen => exact .of_event (exec_gateOpen hrun) State.event_gateOpenAt
  | gateClosed => exact .of_event (exec_gateClosed hrun) State.event_gateClosedAt
  | yieldToShadow => exact .of_event (exec_yieldToShadow hrun) State.event_yieldToShadowAt
  | rejoinGuard e => exact .of_event (exec_rejoinGuard hrun e) (s.event_airEvent _)
  | fillFadeExpiry e => exact .of_event (exec_fillFadeExpiry hrun e) (s.event_airEvent _)
  | idHoldExpiry e => exact .of_event (exec_idHoldExpiry hrun e) (s.event_airEvent _)
  | peerLoss q => exact .of_event (exec_peerLoss hrun q) ((s.event_peerLossFired q).finish.whenDue _)
  | statusBeacon => exact .of_event (exec_statusBeacon hrun) (State.event_statusBeaconAt.whenDue _)
  | startUpListenExpiry => exact .of_event (exec_startUpListenExpiry hrun) (State.event_startUpListenFired.whenDue _)
  | listenExpiry => exact .of_event (exec_listenExpiry hrun) (State.event_listenFired.finish.whenDue _)
  | absentWatch => exact .of_event (exec_absentWatch hrun) (State.event_absentWatchFired.finish.whenDue _)
  | takenWindowExpiry => exact .of_event (exec_takenWindowExpiry hrun) ((s.event_cancelInterval _).whenDue _)
  | lineIdle => exact .of_event (exec_lineIdle hrun) State.event_lineIdleAt

theorem exec_taken (c : Instr) (s : State) : Taken s (exec c s) := by
  cases h : s.phase with
  | configuring => exact exec_taken_configuring h c
  | running => exact exec_taken_running h c

/-! ### The statements -/

/-- Settles O1: the step's two equations. -/
theorem stepTakesTheFrontCommand : Obligations.StepTakesTheFrontCommand :=
  fun s => ⟨fun c rest h => by rw [step, h], fun h => by rw [step, h]⟩

/-- Settles O2: every command is taken. -/
theorem everyCommandIsTaken : Obligations.EveryCommandIsTaken := fun c s =>
  let ⟨t, ht, k⟩ := exec_taken c s
  ⟨t, ht, k.pending⟩

/-- Settles O3: field by field. -/
theorem limitsHoldAtReset : Obligations.LimitsHoldAtReset := State.reset_limits

/-- Settles O4: a step carries out one command, which keeps the limits, on a state that differs in the queue of commands alone. -/
theorem limitsKeptByEveryStep : Obligations.LimitsKeptByEveryStep := by
  intro s t k h
  unfold step at h
  split at h
  · cases h; exact k
  · rename_i c rest _
    obtain ⟨u, hu, hkeeps⟩ := exec_taken c { s with pending := rest }
    rw [hu] at h
    cases h
    exact hkeeps.limits ⟨k.clock, k.order, k.log, k.queue, k.gate, k.peers, k.ducks, k.bases⟩

/-- Settles O11: the events and the close of a sample period leave period, air time and day, and the tick moves them on by one. -/
theorem samplePeriodAdvancesAirTime : Obligations.SamplePeriodAdvancesAirTime := by
  intro s h
  have hevents : s.Event (s.takeDue periodFuel).closePeriod.mixed :=
    (s.event_takeDue periodFuel).trans (State.event_closePeriod.trans State.event_mixed)
  refine ⟨_, exec_samplePeriod h, ?_⟩
  rw [State.tick_period, State.tick_clock, hevents.period]
  simp only [Clock.advance, hevents.airTime, hevents.day, dayLength, and_self]

end Sys2Proof.Machine
end


section
/-! Laws of the formats of chapter 13: fields, payloads, fill bits and frames read back. -/

namespace Sys2Proof.Machine

/-! ### Fields -/

/-- A 2-byte field from its bytes. -/
def join16 (a b : Byte) : BitVec 16 := a ++ b

theorem join16_bytes (x : BitVec 16) : join16 (x.extractLsb' 8 8) (x.extractLsb' 0 8) = x := by
  ext i hi
  unfold join16
  rw [BitVec.getElem_append]
  split <;> rw [BitVec.getElem_extractLsb', BitVec.getLsbD_eq_getElem (by omega)] <;> congr 1 <;> omega

theorem join32_bytes (x : BitVec 32) :
    join32 (x.extractLsb' 24 8) (x.extractLsb' 16 8) (x.extractLsb' 8 8) (x.extractLsb' 0 8) = x := by
  apply BitVec.eq_of_toNat_eq
  simp only [join32, BitVec.toNat_append, BitVec.extractLsb'_toNat, Nat.shiftLeft_eq, Nat.shiftRight_eq_div_pow]
  have := x.isLt
  rw [← Nat.shiftLeft_eq, ← Nat.shiftLeft_eq, ← Nat.shiftLeft_eq]
  rw [← Nat.shiftLeft_add_eq_or_of_lt (by omega), ← Nat.shiftLeft_add_eq_or_of_lt (by omega),
    ← Nat.shiftLeft_add_eq_or_of_lt (by omega)]
  simp only [Nat.shiftLeft_eq]
  omega

/-- The first byte of a LOAD's start description: kind, law and group (13.2). -/
theorem loadByte_fields (k : BitVec 3) (l : BitVec 2) (g : BitVec 3) :
    (k ++ l ++ g).extractLsb' 5 3 = k ∧ (k ++ l ++ g).extractLsb' 3 2 = l ∧ (k ++ l ++ g).extractLsb' 0 3 = g := by
  revert k l g
  decide

theorem readReport_bytes (r : ReportFields) : readReport (reportBytes r) = some r :=
  (show _ = some (ReportFields.mk _ _ (join32 _ _ _ _) (join32 _ _ _ _)) from rfl).trans (by simp only [join32_bytes])

/-! ### Notices -/

/-- The bytes of a STATUS after its fourteenth are its report's. -/
theorem readNotice_status_report (f : StatusFields) (r : ReportFields) (h : f.report = some r) :
    readNotice 15 (statusBytes f) = (readReport (reportBytes r)).map fun r =>
      .status ⟨f.head, f.partner, f.trim, f.rejected, f.day, f.decks, f.recordCount, f.logCount, f.lostCount, f.groups, some r⟩ := by
  unfold statusBytes
  rw [h]
  exact (show _ = (readReport (reportBytes r)).map fun r =>
    Notice.status ⟨_, _, join16 _ _, _, join16 _ _, join16 _ _, _, _, _, join16 _ _, some r⟩ from rfl).trans
    (by simp only [join16_bytes])

theorem readNotice_status (f : StatusFields) : readNotice 15 (statusBytes f) = some (Notice.status f) := by
  cases h : f.report with
  | none =>
    unfold statusBytes
    rw [h]
    refine (show _ = some (Notice.status ⟨_, _, join16 _ _, _, join16 _ _, join16 _ _, _, _, _, join16 _ _, none⟩) from rfl).trans ?_
    simp only [join16_bytes, ← h]
  | some r => rw [readNotice_status_report f r h, readReport_bytes, Option.map_some, ← h]

/-- Settles O5: kind by kind, each field back from its bytes. -/
theorem noticePayloadsReadBack : Obligations.NoticePayloadsReadBack := by
  intro n
  cases n with
  | take | taken | clearFaults | clear | fault _ | go _ => rfl
  | start f =>
    exact (show _ = some (Notice.start ⟨join16 _ _, join16 _ _, _, _, _, join32 _ _ _ _, join32 _ _ _ _, join32 _ _ _ _⟩) from rfl).trans
      (by simp only [join16_bytes, join32_bytes])
  | segue f =>
    exact (show _ = some (Notice.segue ⟨join16 _ _, _, join32 _ _ _ _⟩) from rfl).trans
      (by simp only [join16_bytes, join32_bytes])
  | finish f =>
    exact (show _ = some (Notice.finish ⟨join16 _ _, _, _, join32 _ _ _ _⟩) from rfl).trans
      (by simp only [join16_bytes, join32_bytes])
  | level f => exact (show _ = some (Notice.level ⟨_, join16 _ _⟩) from rfl).trans (by simp only [join16_bytes])
  | duck f => exact (show _ = some (Notice.duck ⟨_, join16 _ _, join16 _ _⟩) from rfl).trans (by simp only [join16_bytes])
  | drop t => exact (show _ = some (Notice.drop (join16 _ _)) from rfl).trans (by simp only [join16_bytes])
  | declareBreak f =>
    exact (show _ = some (Notice.declareBreak ⟨_, _, join32 _ _ _ _, join16 _ _⟩) from rfl).trans
      (by simp only [join16_bytes, join32_bytes])
  | load f =>
    obtain ⟨hkind, hlaw, hgroup⟩ := loadByte_fields f.kind f.law f.group
    exact (show _ = some (Notice.load ⟨join16 _ _, join16 _ _, (f.kind ++ f.law ++ f.group).extractLsb' 5 3,
      (f.kind ++ f.law ++ f.group).extractLsb' 3 2, (f.kind ++ f.law ++ f.group).extractLsb' 0 3, join32 _ _ _ _, join32 _ _ _ _,
      join16 _ _, join16 _ _, join16 _ _, join16 _ _, _, join16 _ _⟩) from rfl).trans
      (by simp only [join16_bytes, join32_bytes, hkind, hlaw, hgroup])
  | status f => exact readNotice_status f
  | asrun f =>
    exact (show _ = some (Notice.asrun ⟨_, join16 _ _, join16 _ _, _, _, _, _, _, join32 _ _ _ _, join32 _ _ _ _, join32 _ _ _ _, _, _⟩)
      from rfl).trans (by simp only [join16_bytes, join32_bytes])

/-! ### Bits and bytes -/

@[simp] theorem length_bitsOf {n : Nat} (x : BitVec n) : (bitsOf x).length = n := by simp [bitsOf]

/-- The first bits of a field spell the number shifted right by the bits that are left out. -/
theorem bitsToNat_take {n : Nat} (x : BitVec n) (k : Nat) (h : k ≤ n) :
    bitsToNat ((List.range k).map fun i => x.getMsbD i) = x.toNat >>> (n - k) := by
  induction k with
  | zero => simp [bitsToNat, Nat.shiftRight_eq_div_pow, Nat.div_eq_of_lt x.isLt]
  | succ k ih =>
    have hbit : x.getMsbD k = x.toNat.testBit (n - (k + 1)) := by
      rw [BitVec.getMsbD_eq_getLsbD, BitVec.getLsbD, decide_eq_true (by omega : k < n), Bool.true_and]
      congr 1
      omega
    have hhalf : x.toNat >>> (n - k) = x.toNat >>> (n - (k + 1)) / 2 := by
      rw [show n - k = n - (k + 1) + 1 by omega, Nat.shiftRight_succ]
    have hlast : (x.toNat.testBit (n - (k + 1))).toNat = x.toNat >>> (n - (k + 1)) % 2 := by
      rw [Nat.toNat_testBit, Nat.shiftRight_eq_div_pow]
    have ih := ih (by omega)
    unfold bitsToNat at ih ⊢
    rw [List.range_succ, List.map_append, List.foldl_append, ih]
    simp only [List.map_cons, List.map_nil, List.foldl_cons, List.foldl_nil]
    rw [hbit, hlast, hhalf]
    omega

theorem bitsToNat_bitsOf {n : Nat} (x : BitVec n) : bitsToNat (bitsOf x) = x.toNat := by
  rw [bitsOf, bitsToNat_take x n le_rfl, Nat.sub_self, Nat.shiftRight_zero]

theorem ofNat_bitsToNat_bitsOf {n : Nat} (x : BitVec n) : BitVec.ofNat n (bitsToNat (bitsOf x)) = x := by
  rw [bitsToNat_bitsOf, BitVec.ofNat_toNat, BitVec.setWidth_eq]

@[simp] theorem length_bytesToBits (bs : List Byte) : (bytesToBits bs).length = 8 * bs.length := by
  simp [bytesToBits, List.length_flatMap, Nat.mul_comm]

theorem bitsToBytes_bytesToBits (bs : List Byte) (rest : List BusBit) :
    bitsToBytes bs.length (bytesToBits bs ++ rest) = bs := by
  induction bs with
  | nil => rfl
  | cons b bs ih =>
    have htake : (bytesToBits (b :: bs) ++ rest).take 8 = bitsOf b := by
      simp [bytesToBits, List.append_assoc, List.take_left']
    have hdrop : (bytesToBits (b :: bs) ++ rest).drop 8 = bytesToBits bs ++ rest := by
      simp [bytesToBits, List.append_assoc, List.drop_left']
    rw [List.length_cons, bitsToBytes, htake, hdrop, ih, ofNat_bitsToNat_bitsOf]

/-! ### Fill bits (R141) -/

/-- The last bit on the line and its run after the bits given and their fill bits. -/
def runAfter (last : BusBit) (run : Nat) : List BusBit → BusBit × Nat
  | [] => (last, run)
  | b :: bs =>
    let r := if b = last then run + 1 else 1
    if r = 6 then runAfter (!b) 1 bs else runAfter b r bs

theorem stuffFrom_fill {last b : BusBit} {run : Nat} (h : (if b = last then run + 1 else 1) = 6) (bs : List BusBit) :
    stuffFrom last run (b :: bs) = b :: (!b) :: stuffFrom (!b) 1 bs := by
  rw [stuffFrom]
  exact if_pos h

theorem stuffFrom_plain {last b : BusBit} {run : Nat} (h : (if b = last then run + 1 else 1) ≠ 6) (bs : List BusBit) :
    stuffFrom last run (b :: bs) = b :: stuffFrom b (if b = last then run + 1 else 1) bs := by
  rw [stuffFrom]
  exact if_neg h

theorem unstuffFrom_fill {last b : BusBit} {run : Nat} (h : (if b = last then run + 1 else 1) = 6) (n : Nat) (bs : List BusBit) :
    unstuffFrom last run (n + 1) (b :: (!b) :: bs) = (unstuffFrom (!b) 1 n bs).map fun (out, t) => (b :: out, t) := by
  rw [unstuffFrom]
  exact (if_pos h).trans (if_neg (by simp))

theorem unstuffFrom_plain {last b : BusBit} {run : Nat} (h : (if b = last then run + 1 else 1) ≠ 6) (n : Nat) (bs : List BusBit) :
    unstuffFrom last run (n + 1) (b :: bs)
      = (unstuffFrom b (if b = last then run + 1 else 1) n bs).map fun (out, t) => (b :: out, t) := by
  rw [unstuffFrom]
  exact if_neg h

/-- Reading as many bits as were filled gives them back and leaves the line where the filling went on. -/
theorem unstuffFrom_stuffFrom (xs ys tail : List BusBit) (last : BusBit) (run : Nat) :
    unstuffFrom last run xs.length (stuffFrom last run (xs ++ ys) ++ tail)
      = some (xs, (runAfter last run xs).1, (runAfter last run xs).2,
          stuffFrom (runAfter last run xs).1 (runAfter last run xs).2 ys ++ tail) := by
  induction xs generalizing last run with
  | nil => rfl
  | cons b bs ih =>
    rw [List.length_cons, List.cons_append]
    by_cases h : (if b = last then run + 1 else 1) = 6
    · have hrun : runAfter last run (b :: bs) = runAfter (!b) 1 bs := if_pos h
      rw [stuffFrom_fill h, List.cons_append, List.cons_append, unstuffFrom_fill h, ih, hrun]
      rfl
    · have hrun : runAfter last run (b :: bs) = runAfter b (if b = last then run + 1 else 1) bs := if_neg h
      rw [stuffFrom_plain h, List.cons_append, unstuffFrom_plain h, ih, hrun]
      rfl

/-! ### Frames (R143, R153) -/

/-- The bits before the payload: start bit, priority, sender, kind, target, length. -/
def Frame.headBits (f : Frame) : List BusBit :=
  [false] ++ bitsOf f.header.priority ++ bitsOf f.header.sender ++ bitsOf f.kind ++ bitsOf f.header.target
    ++ bitsOf (BitVec.ofNat 5 f.payload.length)

theorem Frame.content_eq (f : Frame) : f.content = f.headBits ++ bytesToBits f.payload := rfl

theorem Frame.length_headBits (f : Frame) : f.headBits.length = 23 := by simp [Frame.headBits]

/-- The fields where a receiver takes them from. -/
theorem Frame.headBits_fields (f : Frame) :
    f.headBits.take 1 = [false] ∧ (f.headBits.drop 1).take 3 = bitsOf f.header.priority
      ∧ (f.headBits.drop 4).take 4 = bitsOf f.header.sender ∧ (f.headBits.drop 8).take 5 = bitsOf f.kind
      ∧ (f.headBits.drop 13).take 5 = bitsOf f.header.target
      ∧ f.headBits.drop 18 = bitsOf (BitVec.ofNat 5 f.payload.length) := by
  refine ⟨?_, ?_, ?_, ?_, ?_, ?_⟩ <;> simp [Frame.headBits, List.take_append, List.drop_append, List.drop_of_length_le]

/-- The line carries the bits before the payload, then the payload and its CRC, then the end bits. -/
theorem Frame.bits_eq (f : Frame) :
    f.bits = stuffFrom false 0 (f.headBits ++ (bytesToBits f.payload ++ bitsOf (crc16 f.content))) ++ List.replicate 7 true := by
  rw [Frame.bits, Frame.content_eq, List.append_assoc]

/-- Settles O6: the two spans are read back from their fill bits, and each check finds the fields where they were put. -/
theorem framesReadBack : Obligations.FramesReadBack := by
  intro f hf
  obtain ⟨hstart, hprio, hsender, hkind, htarget, hlen⟩ := f.headBits_fields
  have hcount : bitsToNat (bitsOf (BitVec.ofNat 5 f.payload.length)) = f.payload.length := by
    rw [bitsToNat_bitsOf, BitVec.toNat_ofNat, Nat.mod_eq_of_lt (by omega)]
  have hhead := unstuffFrom_stuffFrom f.headBits (bytesToBits f.payload ++ bitsOf (crc16 f.content)) (List.replicate 7 true)
    false 0
  rw [f.length_headBits, ← f.bits_eq] at hhead
  generalize runAfter false 0 f.headBits = standing at hhead
  have hbody := unstuffFrom_stuffFrom (bytesToBits f.payload ++ bitsOf (crc16 f.content)) [] (List.replicate 7 true)
    standing.1 standing.2
  rw [List.append_nil, List.length_append, length_bytesToBits, length_bitsOf] at hbody
  have htake : (bytesToBits f.payload ++ bitsOf (crc16 f.content)).take (8 * f.payload.length) = bytesToBits f.payload :=
    List.take_left' (length_bytesToBits _)
  have hdrop : (bytesToBits f.payload ++ bitsOf (crc16 f.content)).drop (8 * f.payload.length) = bitsOf (crc16 f.content) :=
    List.drop_left' (length_bytesToBits _)
  have hends : ((stuffFrom (runAfter standing.1 standing.2 (bytesToBits f.payload ++ bitsOf (crc16 f.content))).1
      (runAfter standing.1 standing.2 (bytesToBits f.payload ++ bitsOf (crc16 f.content))).2 [] ++ List.replicate 7 true).take 7).all
      (· = true) = true := by simp [stuffFrom]
  simp only [readFrame, hhead, hstart, hlen, hcount, hbody, htake, hdrop, ← Frame.content_eq, hends, hprio, hsender, hkind, htarget,
    bitsToBytes_bytesToBits, ofNat_bitsToNat_bitsOf]
  simp [Nat.not_lt.mpr hf]

end Sys2Proof.Machine
end


section
/-! Laws of start-up (chapter 12): reset, the configuration record and the first sample period. -/

namespace Sys2Proof.Machine

variable {s : State}

/-! ### Reset -/

theorem deck_reset (d : DeckNo) : State.reset.deck d = {} := Vector.getElem_replicate _

theorem entry_reset (e : EntryNo) : State.reset.entry e = {} := Vector.getElem_replicate _

theorem peer_reset (q : Station) : State.reset.peer q = {} := Vector.getElem_replicate _

/-- Settles O7: block by block. -/
theorem coldResetRestoresTheTables : Obligations.ColdResetRestoresTheTables := by
  intro p s
  refine ⟨_, rfl, rfl, rfl, rfl, rfl, rfl, rfl, rfl, rfl, rfl, rfl, fun d => ?_, fun e => ?_, rfl, rfl, rfl, fun q => ?_, fun a => ?_,
    rfl, rfl, rfl⟩
  · have hdeck := deck_reset d
    refine ⟨hdeck, congrArg Deck.state hdeck, congrArg Deck.bound hdeck, fun i => ?_, congrArg Deck.storeFlag hdeck,
      Vector.getElem_replicate _, Vector.getElem_replicate _, Vector.getElem_replicate _, Vector.getElem_replicate _⟩
    exact (congrArg (fun x : Deck => x.ring[i]) hdeck).trans (Vector.getElem_replicate _)
  · exact ⟨entry_reset e, congrArg BreakEntry.state (entry_reset e)⟩
  · have hpeer := peer_reset q
    exact ⟨hpeer, congrArg Peer.presence hpeer, congrArg Peer.items hpeer, congrArg Peer.ducks hpeer⟩
  · have hgroup : State.reset.monitor.groups[a] = {} := Vector.getElem_replicate _
    exact ⟨congrArg GroupMonitor.deadAirFlag hgroup, congrArg GroupMonitor.overloadFlag hgroup, congrArg GroupMonitor.silence hgroup,
      congrArg GroupMonitor.overloadRun hgroup, congrArg GroupMonitor.window hgroup⟩

/-! ### Configuration attempts (R198) -/

theorem exec_configAttemptEnd (h : s.phase = .configuring) (r : ConfigRead) :
    exec (.configAttemptEnd r) s = .next (s.configAttempt r) := by
  simp only [exec, execConfigAttemptEnd, h]

theorem exec_configAttemptEnd_running (h : s.phase = .running) (r : ConfigRead) : exec (.configAttemptEnd r) s = .next s := by
  simp only [exec, execConfigAttemptEnd, h]

theorem configMarkerGood_iff (d : List Byte) : configMarkerGood d = true ↔ d.take 4 = [0x4B, 0x43, 0x32, 0x34] := by
  rw [configMarkerGood, decide_eq_true_iff]

theorem configAttempt_marker {d : List Byte} (h : d.take 4 = [0x4B, 0x43, 0x32, 0x34]) :
    s.configAttempt (.bytes d) = s.firstPeriod (readConfig s.ownStation d) false :=
  if_pos ((configMarkerGood_iff d).mpr h)

theorem configAttempt_noMarker {d : List Byte} (h : d.take 4 ≠ [0x4B, 0x43, 0x32, 0x34]) :
    s.configAttempt (.bytes d) = s.firstPeriod defaultConfig true :=
  if_neg fun hgood => h ((configMarkerGood_iff d).mp hgood)

/-- Settles O8: the cases of an attempt's end. -/
theorem configAttemptsEndInARecord : Obligations.ConfigAttemptsEndInARecord := by
  refine fun s => ⟨fun h => ⟨fun hfew => ?_, fun hmany => ?_, fun d => ?_⟩, fun h r => exec_configAttemptEnd_running h r⟩
  · rw [exec_configAttemptEnd h]
    exact congrArg _ (if_neg (Nat.not_le.mpr hfew))
  · refine ⟨_, (exec_configAttemptEnd h _).trans (congrArg _ (if_pos hmany)), rfl, rfl, rfl⟩
  · refine ⟨_, exec_configAttemptEnd h _, ?_, fun hmark => ?_, fun hmark => ?_⟩
    · unfold State.configAttempt
      dsimp only
      split <;> rfl
    · rw [configAttempt_marker hmark]
      exact ⟨rfl, rfl⟩
    · rw [configAttempt_noMarker hmark]
      exact ⟨rfl, rfl⟩

/-! ### The ranges of R199 -/

theorem levelOfField_range (n : Nat) :
    levelOfField n = .off ∨ ∃ t : Int, levelOfField n = .tenths t ∧ -900 ≤ t ∧ t ≤ 0 := by
  unfold levelOfField clampInt
  split
  · exact .inl rfl
  · exact .inr ⟨_, rfl, by omega, by omega⟩

theorem readSteps_range (d : List Byte) (off : Nat) (m : Fin 8) : 1 ≤ (readSteps d off)[m] ∧ (readSteps d off)[m] ≤ 30 := by
  fin_cases m <;> simp [readSteps]

/-- The record pairs the engine exactly with a setting of 1 or 2 and a partner that is another station (R199). -/
def pairedIn (own : Station) (d : List Byte) : Bool :=
  (readBE d 4 1 == 1 || readBE d 4 1 == 2) && decide (readBE d 5 1 < 16) && readBE d 5 1 != own.val

theorem readConfig_setting (own : Station) (d : List Byte) :
    (readConfig own d).setting = if pairedIn own d then (if readBE d 4 1 = 1 then .main else .standby) else .solo := rfl

theorem readConfig_partner (own : Station) (d : List Byte) :
    (readConfig own d).partner = if pairedIn own d then some (Fin.ofNat 16 (readBE d 5 1)) else none := rfl

theorem readConfig_solo_iff (own : Station) (d : List Byte) :
    (readConfig own d).setting = .solo ↔ (readConfig own d).partner = none := by
  rw [readConfig_setting, readConfig_partner]
  split
  · split <;> simp
  · simp

theorem readConfig_partner_ne_own (own : Station) (d : List Byte) : (readConfig own d).partner ≠ some own := by
  rw [readConfig_partner]
  split
  · rename_i hpaired
    simp only [pairedIn, Bool.and_eq_true, decide_eq_true_eq, bne_iff_ne] at hpaired
    obtain ⟨⟨_, hlt⟩, hne⟩ := hpaired
    intro heq
    have hval := congrArg Fin.val (Option.some.inj heq)
    rw [Fin.val_ofNat, Nat.mod_eq_of_lt hlt] at hval
    exact hne hval
  · simp

theorem readConfig_mask_ne_zero (own : Station) (d : List Byte) : (readConfig own d).mask ≠ 0 := by
  show (if BitVec.ofNat 16 (readBE d 6 2) = 0 then (0xFFFF : BitVec 16) else BitVec.ofNat 16 (readBE d 6 2)) ≠ 0
  split
  · decide
  · assumption

/-- Settles O9: field by field. -/
theorem configFieldsAreInRange : Obligations.ConfigFieldsAreInRange := by
  intro own d
  refine ⟨fun a => ?_, fun m => ?_, levelOfField_range _, fun g => ?_, Nat.min_le_left _ _, Nat.le_max_left _ _,
    max_le (by decide) (Nat.min_le_left _ _), Nat.min_le_left _ _, readConfig_mask_ne_zero own d, readConfig_solo_iff own d,
    readConfig_partner_ne_own own d⟩
  · fin_cases a <;> exact Nat.min_le_left _ _
  · obtain ⟨hlow, hhigh⟩ := readSteps_range d 11 m
    obtain ⟨rlow, rhigh⟩ := readSteps_range d 19 m
    exact ⟨hlow, hhigh, rlow, rhigh⟩
  · fin_cases g <;> exact levelOfField_range _

/-! ### The first sample period (R177, R200) -/

theorem liveLine_firstPeriod (c : ConfigRecord) (b : Bool) :
    (s.firstPeriod c b).liveLine = decide (startRole c.setting = .live) := rfl

theorem monitor_firstPeriod (c : ConfigRecord) (b : Bool) (a : Fin 3) :
    ((s.firstPeriod c b).monitor.groups[a]).state = startMonitor c.setting := by
  rw [show (s.firstPeriod c b).monitor.groups = Vector.replicate 3 { state := startMonitor c.setting } from rfl]
  exact congrArg GroupMonitor.state (Vector.getElem_replicate _)

/-- Settles O10: the three role settings. -/
theorem roleSettingStartsTheEngine : Obligations.RoleSettingStartsTheEngine := by
  intro s d h hmark
  have hstart := (exec_configAttemptEnd h (.bytes d)).trans (congrArg _ (configAttempt_marker hmark))
  generalize readConfig s.ownStation d = c at hstart
  have hmonitor := monitor_firstPeriod (s := s) c false
  refine ⟨_, hstart, rfl, rfl, rfl, rfl, rfl, fun hset => ?_, fun hset => ?_, fun hset => ?_⟩ <;>
  · change c.setting = _ at hset
    refine ⟨?_, ?_, ?_, fun a => (hmonitor a).trans ?_, ?_⟩
    · exact congrArg startRole hset
    · exact congrArg startGate hset
    · rw [liveLine_firstPeriod, hset]; rfl
    · exact congrArg startMonitor hset
    · exact congrArg startIntervals hset

end Sys2Proof.Machine
end


section
/-! Laws of gain and mixing (chapters 5 and 6): the gain stages, the nearest gain word, frames, sums, saturation and the gate. -/

namespace Sys2Proof.Machine

variable {s t : State}

/-! ### Stages 1, 2, 4 (R90 to R94) -/

theorem fadeContribution_linear {f : FadeTerm} (h : f.law = .linear) : fadeContribution (some f) = some 0 := by
  simp only [fadeContribution, h]

theorem fadeContribution_logIn {f : FadeTerm} (h : f.law = .log) (hin : f.fadesIn = true) : fadeContribution (some f)
    = if f.pos = 0 then none else if f.pos < f.len then some (-600 + ((600 * f.pos / f.len : Nat) : Int)) else some 0 := by
  simp only [fadeContribution, h, hin, if_true]

theorem fadeContribution_logOut {f : FadeTerm} (h : f.law = .log) (hout : f.fadesIn = false) : fadeContribution (some f)
    = if f.pos < f.len then some (-((600 * f.pos / f.len : Nat) : Int)) else none := by
  simp only [fadeContribution, h, hout, Bool.false_eq_true, if_false]

theorem linearFade_log (g : Nat) {f : FadeTerm} (h : f.law = .log) : linearFade g (some f) = g := by
  simp only [linearFade, h]

theorem linearFade_in (g : Nat) {f : FadeTerm} (h : f.law = .linear) (hin : f.fadesIn = true) :
    linearFade g (some f) = if f.pos < f.len then g * f.pos / f.len else g := by
  simp only [linearFade, h, hin, if_true]

theorem linearFade_out (g : Nat) {f : FadeTerm} (h : f.law = .linear) (hout : f.fadesIn = false) :
    linearFade g (some f) = if f.pos < f.len then g * (f.len - f.pos) / f.len else 0 := by
  simp only [linearFade, h, hout, Bool.false_eq_true, if_false]

theorem linearFade_zero (fade : Option FadeTerm) : linearFade 0 fade = 0 := by
  cases fade with
  | none => rfl
  | some f =>
    cases h : f.law with
    | log => exact linearFade_log 0 h
    | linear =>
      cases hin : f.fadesIn with
      | true => rw [linearFade_in 0 h hin]; simp
      | false => rw [linearFade_out 0 h hin]; simp

theorem newGainWord_noFade {fade : Option FadeTerm} (h : fadeContribution fade = none) (trim : Int) (master : Option Level)
    (level : Level) (duck : Nat) : newGainWord trim master level duck fade = 0 := by
  simp only [newGainWord, h]

/-- The sum of stage 2 decides: word 0 when the composite is absent. -/
theorem newGainWord_of_composite {fade : Option FadeTerm} {f : Int} (h : fadeContribution fade = some f) {trim : Int}
    {master : Option Level} {level : Level} {duck : Nat} : newGainWord trim master level duck fade
      = ((composite trim master level duck f).map fun c => linearFade (gainWord c) fade).getD 0 := by
  simp only [newGainWord, h]
  split <;> simp [linearFade_zero, *]

theorem composite_off {master : Option Level} {level : Level} (h : master = some .off ∨ level = .off) (trim : Int) (duck : Nat)
    (f : Int) : composite trim master level duck f = none := by
  unfold composite
  obtain rfl | rfl := h
  · rfl
  · cases master with
    | none => rfl
    | some m => cases m <;> rfl

theorem composite_tenths {master : Option Level} {m : Int} (h : master = some (.tenths m) ∨ master = none ∧ m = 0) (trim l : Int)
    (duck : Nat) (f : Int) : composite trim master (.tenths l) duck f
      = if trim + m + l - duck + f < -900 then none else some (min 120 (trim + m + l - duck + f)) := by
  obtain rfl | ⟨rfl, rfl⟩ := h <;> rfl

theorem newGainWord_off {master : Option Level} {level : Level} (h : master = some .off ∨ level = .off) (trim : Int) (duck : Nat)
    (fade : Option FadeTerm) : newGainWord trim master level duck fade = 0 := by
  cases hf : fadeContribution fade with
  | none => exact newGainWord_noFade hf _ _ _ _
  | some f => rw [newGainWord_of_composite hf, composite_off h]; rfl

/-! ### Stage 5: the ramp (R95) -/

theorem rampGain_last (last new : Nat) : rampGain last new 47 = new := by
  have h : Int.tdiv (((new : Int) - last) * 48) 48 = (new : Int) - last := Int.mul_tdiv_cancel _ (by decide)
  unfold rampGain
  norm_num [h]

theorem rampGain_same (last k : Nat) : rampGain last last k = last := by simp [rampGain]

/-- A part of at most 48 forty-eighths of a difference lies between 0 and the difference. -/
theorem tdiv_part_range (x : Int) (k : Nat) (h : k < 48) :
    min 0 x ≤ Int.tdiv (x * (k + 1)) 48 ∧ Int.tdiv (x * (k + 1)) 48 ≤ max 0 x := by
  have hk : ((k : Int) + 1) ≤ 48 := by omega
  rcases Int.le_total 0 x with hx | hx
  · have hpos : 0 ≤ x * ((k : Int) + 1) := Int.mul_nonneg hx (by omega)
    have hle : x * ((k : Int) + 1) ≤ x * 48 := Int.mul_le_mul_of_nonneg_left hk hx
    rw [Int.tdiv_eq_ediv_of_nonneg hpos]
    omega
  · have hpos : 0 ≤ -x * ((k : Int) + 1) := Int.mul_nonneg (by omega) (by omega)
    have hle : -x * ((k : Int) + 1) ≤ -x * 48 := Int.mul_le_mul_of_nonneg_left hk (by omega)
    have hneg : Int.tdiv (x * ((k : Int) + 1)) 48 = -((-x * ((k : Int) + 1)) / 48) := by
      rw [← Int.tdiv_eq_ediv_of_nonneg hpos, ← Int.neg_tdiv, Int.neg_mul, Int.neg_neg]
    rw [hneg]
    omega

theorem rampGain_between (last new k : Nat) (h : k < 48) :
    min (last : Int) new ≤ rampGain last new k ∧ rampGain last new k ≤ max (last : Int) new := by
  obtain ⟨hlow, hhigh⟩ := tdiv_part_range ((new : Int) - last) k h
  unfold rampGain
  omega

/-- Settles O14: stage by stage. -/
theorem gainStagesFollowTheirTables : Obligations.GainStagesFollowTheirTables := by
  refine ⟨⟨rfl, fun f => ⟨fadeContribution_linear, fun hlaw hin hpos => ?_, fun hlaw hin hpos hlt => ?_, fun hlaw hin hpos hle => ?_,
      fun hlaw hout hlt => ?_, fun hlaw hout hle => ?_⟩⟩,
    fun trim master level duck fade => ⟨fun h => newGainWord_noFade h _ _ _ _, fun h => newGainWord_off h _ _ _,
      fun m l f hm hl hf => ?_⟩,
    fun g => ⟨rfl, fun f => ⟨linearFade_log g, fun hlaw hin hlt => ?_, fun hlaw hin hle => ?_, fun hlaw hout hlt => ?_,
      fun hlaw hout hle => ?_⟩⟩,
    fun last new => ⟨rampGain_last last new, rampGain_same last, fun k hk => ⟨rfl, rampGain_between last new k hk⟩⟩⟩
  · rw [fadeContribution_logIn hlaw hin, if_pos hpos]
  · rw [fadeContribution_logIn hlaw hin, if_neg (by omega), if_pos hlt]
  · rw [fadeContribution_logIn hlaw hin, if_neg (by omega), if_neg (by omega)]
  · rw [fadeContribution_logOut hlaw hout, if_pos hlt]
  · rw [fadeContribution_logOut hlaw hout, if_neg (by omega)]
  · subst hl
    rw [newGainWord_of_composite hf, composite_tenths hm]
    refine ⟨fun h => ?_, fun hlow hhigh => ?_, fun h => ?_⟩
    · rw [if_pos h]; rfl
    · rw [if_neg (by omega), Int.min_eq_right hhigh]; rfl
    · rw [if_neg (by omega), Int.min_eq_left (by omega)]; rfl
  · rw [linearFade_in g hlaw hin, if_pos hlt]
  · rw [linearFade_in g hlaw hin, if_neg (by omega)]
  · rw [linearFade_out g hlaw hout, if_pos hlt]
  · rw [linearFade_out g hlaw hout, if_neg (by omega)]

/-! ### Stage 3: the nearest word (R93) -/

/-- The test of the search says what R93 says, over the reals. -/
theorem wordAtMost_iff (c : Int) (g : Nat) (hg : 0 < g) :
    wordAtMost c g = true ↔ (g : ℝ) - 1 / 2 ≤ 1048576 * (10 : ℝ) ^ ((c : ℝ) / 200) := by
  have hpow : ((10 : ℝ) ^ ((c : ℝ) / 200)) ^ 200 = (10 : ℝ) ^ (c : ℤ) := by
    rw [← Real.rpow_natCast, ← Real.rpow_mul (by norm_num), ← Real.rpow_intCast]
    norm_num
  have hsplit : (10 : ℝ) ^ (c : ℤ) * 10 ^ (-c).toNat = 10 ^ c.toNat := by
    rw [← zpow_natCast, ← zpow_natCast, ← zpow_add₀ (by norm_num)]
    congr 1
    omega
  have hword : ((2 * g - 1 : Nat) : ℝ) = 2 * (g : ℝ) - 1 := by
    rw [Nat.cast_sub (by omega)]
    push_cast
    ring
  have htwo : (2 : ℝ) ^ 4200 = ((2 : ℝ) ^ 21) ^ 200 := by rw [← pow_mul]
  have hbase : (0 : ℝ) ≤ 2 ^ 21 * (10 : ℝ) ^ ((c : ℝ) / 200) := by positivity
  have hword0 : (0 : ℝ) ≤ ((2 * g - 1 : Nat) : ℝ) := Nat.cast_nonneg _
  calc wordAtMost c g = true
      ↔ ((2 * g - 1 : Nat) : ℝ) ^ 200 * 10 ^ (-c).toNat ≤ 2 ^ 4200 * 10 ^ c.toNat := by
        rw [wordAtMost, decide_eq_true_iff]
        exact_mod_cast Iff.rfl
    _ ↔ ((2 * g - 1 : Nat) : ℝ) ^ 200 ≤ (2 ^ 21 * (10 : ℝ) ^ ((c : ℝ) / 200)) ^ 200 := by
        rw [mul_pow, hpow, ← htwo, ← hsplit, ← mul_assoc]
        exact mul_le_mul_iff_left₀ (by positivity)
    _ ↔ ((2 * g - 1 : Nat) : ℝ) ≤ 2 ^ 21 * (10 : ℝ) ^ ((c : ℝ) / 200) := pow_le_pow_iff_left₀ hword0 hbase (by decide)
    _ ↔ (g : ℝ) - 1 / 2 ≤ 1048576 * (10 : ℝ) ^ ((c : ℝ) / 200) := by
        rw [hword]
        constructor <;> intro h <;> linarith

/-- One bit of the search: the word stays within the test, and the test fails one step of the bit above it. -/
theorem search_step (p : Nat → Bool) (b g : Nat) (hlow : g = 0 ∨ p g = true) (hhigh : p (g + 2 ^ (b + 1)) = false) :
    ((if p (g + 2 ^ b) then g + 2 ^ b else g) = 0 ∨ p (if p (g + 2 ^ b) then g + 2 ^ b else g) = true)
      ∧ p ((if p (g + 2 ^ b) then g + 2 ^ b else g) + 2 ^ b) = false := by
  cases h : p (g + 2 ^ b) with
  | true =>
    rw [if_pos rfl]
    refine ⟨.inr h, ?_⟩
    rwa [Nat.add_assoc, ← Nat.two_mul, ← Nat.pow_succ']
  | false => exact ⟨by simpa using hlow, by simpa using h⟩

/-- The search over bits from `n - 1` down: it ends on a word within the test whose successor fails it. -/
theorem search_greatest (p : Nat → Bool) (n g : Nat) (hlow : g = 0 ∨ p g = true) (hhigh : p (g + 2 ^ n) = false) :
    let w := (List.range n).reverse.foldl (fun g b => if p (g + 2 ^ b) then g + 2 ^ b else g) g
    (w = 0 ∨ p w = true) ∧ p (w + 1) = false := by
  induction n generalizing g with
  | zero => exact ⟨hlow, hhigh⟩
  | succ n ih =>
    obtain ⟨hlow', hhigh'⟩ := search_step p n g hlow hhigh
    rw [List.range_succ, List.reverse_append, List.reverse_cons, List.reverse_nil, List.nil_append, List.singleton_append,
      List.foldl_cons]
    exact ih _ hlow' hhigh'

theorem gainWord_eq_search (c : Int) :
    gainWord c = (List.range 23).reverse.foldl (fun g b => if wordAtMost c (g + 2 ^ b) then g + 2 ^ b else g) 0 := rfl

/-- No composite's word needs more than 23 bits. -/
theorem wordAtMost_top (c : Int) (h : c ≤ 120) : wordAtMost c (2 ^ 23) = false := by
  have hten : 10 ^ 120 ≤ 2 ^ 400 := by
    rw [show (120 : Nat) = 3 * 40 from rfl, show (400 : Nat) = 10 * 40 from rfl, Nat.pow_mul, Nat.pow_mul]
    exact Nat.pow_le_pow_left (by norm_num) 40
  have hsplit (a : Nat) : a ^ 4200 * a ^ 400 = (a ^ 23) ^ 200 :=
    (Nat.pow_add a 4200 400).symm.trans (Nat.pow_mul a 23 200)
  rw [wordAtMost, decide_eq_false_iff_not, Nat.not_le]
  calc 2 ^ 4200 * 10 ^ c.toNat ≤ 2 ^ 4200 * 10 ^ 120 := Nat.mul_le_mul_left _ (Nat.pow_le_pow_right (by decide) (by omega))
    _ ≤ 2 ^ 4200 * 2 ^ 400 := Nat.mul_le_mul_left _ hten
    _ = (2 ^ 23) ^ 200 := hsplit 2
    _ < (2 * 2 ^ 23 - 1) ^ 200 := Nat.pow_lt_pow_left (by norm_num) (by decide)
    _ ≤ (2 * 2 ^ 23 - 1) ^ 200 * 10 ^ (-c).toNat := Nat.le_mul_of_pos_right _ (by positivity)

/-- Settles O15: the search ends on the greatest word within the test, which is the nearest. -/
theorem gainWordIsTheNearest : Obligations.GainWordIsTheNearest := by
  refine ⟨fun c _ hc => ?_, by decide +kernel, by decide +kernel, by decide +kernel⟩
  have hsearch := search_greatest (wordAtMost c) 23 0 (.inl rfl) (by rw [Nat.zero_add]; exact wordAtMost_top c hc)
  rw [← gainWord_eq_search] at hsearch
  obtain ⟨hlow, hhigh⟩ := hsearch
  constructor
  · rcases Nat.eq_zero_or_pos (gainWord c) with hzero | hpos
    · have hpos : (0 : ℝ) < 1048576 * (10 : ℝ) ^ ((c : ℝ) / 200) := by positivity
      rw [hzero]
      push_cast
      linarith
    · exact (wordAtMost_iff c _ hpos).mp (hlow.resolve_left hpos.ne')
  · have hnext := mt (wordAtMost_iff c (gainWord c + 1) (Nat.succ_pos _)).mpr (by rw [hhigh]; decide)
    push_cast at hnext
    linarith

/-! ### Frames and sums (R67, R97, R106) -/

theorem Deck.handed_missing {x : Deck} (it : Item) (h : x.filledBlock (x.p / 1024) = none) : x.handed it = ⟨0, 0⟩ := by
  rw [Deck.handed, Deck.frame, h]
  rfl

theorem Deck.handed_filled {x : Deck} (it : Item) {a : List Byte} (h : x.filledBlock (x.p / 1024) = some a) :
    x.handed it = blockFrame it.format a (x.p % 1024) := by
  rw [Deck.handed, Deck.frame, h]
  rfl

theorem State.outputOn_sounding {d : DeckNo} {it : Item} (h : (s.deck d).sounding = true) (hit : (s.deck d).item = some it) (g : Group) :
    s.outputOn g d = if it.group = g then
      ⟨outputSample ((s.deck d).handed it).left (s.rampOf d), outputSample ((s.deck d).handed it).right (s.rampOf d)⟩ else ⟨0, 0⟩ := by
  simp only [State.outputOn, h, hit]
  rfl

theorem State.outputOn_quiet {d : DeckNo} (h : (s.deck d).sounding = false) (g : Group) : s.outputOn g d = ⟨0, 0⟩ := by
  simp only [State.outputOn, h]
  rfl

theorem State.groupSum_eq (s : State) (g : Group) : s.groupSum g =
    ⟨(s.outputOn g 0).left + (s.outputOn g 1).left + (s.outputOn g 2).left + (s.outputOn g 3).left,
      (s.outputOn g 0).right + (s.outputOn g 1).right + (s.outputOn g 2).right + (s.outputOn g 3).right⟩ := by
  simp [State.groupSum, allDecks, silence]

/-! ### Output samples, saturation, the gate (R97, R107, R108) -/

theorem outputSample_nearest (x g : Int) :
    1048576 * outputSample x g ≤ x * g + 524288 ∧ x * g + 524288 < 1048576 * (outputSample x g + 1) := by
  rw [outputSample, Int.fdiv_eq_ediv_of_nonneg _ (by decide)]
  omega

theorem gateSample_eq (x : Int) (w : Nat) : gateSample x w = (x * w + 480) / 960 :=
  Int.fdiv_eq_ediv_of_nonneg _ (by decide)

theorem gateSample_between (x : Int) (w : Nat) (h : w ≤ 960) :
    (0 ≤ x → 0 ≤ gateSample x w ∧ gateSample x w ≤ x) ∧ (x ≤ 0 → x ≤ gateSample x w ∧ gateSample x w ≤ 0) := by
  rw [gateSample_eq]
  have hw : (w : Int) ≤ 960 := by exact_mod_cast h
  refine ⟨fun hx => ?_, fun hx => ?_⟩
  · have hpos : 0 ≤ x * (w : Int) := Int.mul_nonneg hx (Int.natCast_nonneg w)
    have hle : x * (w : Int) ≤ x * 960 := Int.mul_le_mul_of_nonneg_left hw hx
    omega
  · have hpos : 0 ≤ -x * (w : Int) := Int.mul_nonneg (by omega) (Int.natCast_nonneg w)
    have hle : -x * (w : Int) ≤ -x * 960 := Int.mul_le_mul_of_nonneg_left hw (by omega)
    rw [Int.neg_mul] at hpos hle
    omega

/-- Settles O13: frame, scaling, sums, saturation and gate. -/
theorem framesAreScaledSummedAndGated : Obligations.FramesAreScaledSummedAndGated := by
  refine ⟨fun s d it h hit => ⟨Deck.handed_missing it, fun a => Deck.handed_filled it, fun g hg => ?_, ?_⟩,
    fun s d g h => State.outputOn_quiet h g, fun _ _ => rfl, outputSample_nearest,
    fun s g => by rw [State.groupSum_eq]; exact ⟨rfl, rfl⟩, fun x => ?_, gateSample_between, fun x => ?_⟩
  · rw [State.outputOn_sounding h hit, if_neg (Ne.symm hg)]
  · rw [State.outputOn_sounding h hit, if_pos rfl]
  · unfold saturate clampInt
    omega
  · rw [gateSample_eq, gateSample_eq]
    omega

end Sys2Proof.Machine
end


section
/-! Laws of handing notices, and of the judgement of a monitor window (6.4 to 6.7). -/

namespace Sys2Proof.Machine

variable {s t u : State}

/-! ### Handing depends on bus and log alone, and changes them alone -/

/-- A state with another's bus and as-run log. -/
def State.withLine (u s : State) : State := { u with bus := s.bus, log := s.log }

theorem State.judgeOffer_on (u s : State) : (u.withLine s).judgeOffer = u.withLine s.judgeOffer := by
  unfold State.judgeOffer State.withLine
  dsimp only
  split
  · split <;> rfl
  · rfl

/-- Bus and log after a producer hands a notice, and whether an offered ASRUN was evicted. -/
def CueBus.handed? (b : CueBus) (n : Notice) : CueBus × Bool :=
  match n with
  | .status f => b.handStatus f
  | _ => b.handPlain n

theorem State.hand_cases (s : State) (n : Notice) : s.hand n =
    if (s.bus.handed? n).2 then State.unoffer { s with bus := (s.bus.handed? n).1 } else { s with bus := (s.bus.handed? n).1 } := by
  cases n <;> rfl

theorem State.hand_on (u s : State) (n : Notice) : (u.withLine s).hand n = u.withLine (s.hand n) := by
  rw [State.hand_cases, State.hand_cases]
  show (if (s.bus.handed? n).2 = true then _ else _) = _
  split
  · exact State.judgeOffer_on u { s with bus := (s.bus.handed? n).1, log := { s.log with offer := none } }
  · rfl

theorem State.hand_frame (s : State) (n : Notice) : s.hand n = s.withLine (s.hand n) := State.hand_on s s n

theorem State.judgeOffer_frame (s : State) : s.judgeOffer = s.withLine s.judgeOffer := State.judgeOffer_on s s

theorem State.handLive_live (h : s.isLive = true) (n : Notice) : s.handLive n = s.hand n := if_pos h

theorem State.handLive_notLive (h : s.isLive = false) (n : Notice) : s.handLive n = s := if_neg (by rw [h]; decide)

theorem State.handLive_on (h : u.isLive = s.isLive) (n : Notice) : (u.withLine s).handLive n = u.withLine (s.handLive n) := by
  cases hs : s.isLive with
  | true => rw [State.handLive_live hs, State.handLive_live (s := u.withLine s) (h.trans hs), State.hand_on]
  | false => rw [State.handLive_notLive hs, State.handLive_notLive (s := u.withLine s) (h.trans hs)]

theorem State.handLive_frame (s : State) (n : Notice) : s.handLive n = s.withLine (s.handLive n) := State.handLive_on rfl n

theorem State.isLive_handLive (s : State) (n : Notice) : (s.handLive n).isLive = s.isLive :=
  (congrArg State.isLive (s.handLive_frame n)).trans rfl

/-- A list of notices handed while LIVE. -/
def State.handAll (s : State) (ns : List Notice) : State := ns.foldl State.handLive s

theorem State.handAll_cons (s : State) (n : Notice) (ns : List Notice) : s.handAll (n :: ns) = (s.handLive n).handAll ns := rfl

theorem State.handAll_append (s : State) (ns ms : List Notice) : s.handAll (ns ++ ms) = (s.handAll ns).handAll ms :=
  List.foldl_append ..

theorem State.handAll_on (h : u.isLive = s.isLive) (ns : List Notice) : (u.withLine s).handAll ns = u.withLine (s.handAll ns) := by
  induction ns generalizing s with
  | nil => rfl
  | cons n ns ih => rw [State.handAll_cons, State.handAll_cons, State.handLive_on h, ih (h.trans (s.isLive_handLive n).symm)]

theorem State.handAll_frame (s : State) (ns : List Notice) : s.handAll ns = s.withLine (s.handAll ns) := State.handAll_on rfl ns

theorem State.handAll_notLive (h : s.isLive = false) (ns : List Notice) : s.handAll ns = s := by
  induction ns with
  | nil => rfl
  | cons n ns ih => rw [State.handAll_cons, State.handLive_notLive h, ih]

/-- A state with another monitor. -/
def State.withMonitor (s : State) (m : Monitor) : State := { s with monitor := m }

theorem State.handAll_withMonitor (s : State) (m : Monitor) (ns : List Notice) :
    (s.withMonitor m).handAll ns = (s.handAll ns).withMonitor m := by
  rw [s.handAll_frame ns]
  exact State.handAll_on (s := s) (u := s.withMonitor m) rfl ns

/-! ### STORE FAULTs that waited -/

/-- The FAULT notice of a STORE fault that waited (R119). -/
def StoreFault.notice (f : StoreFault) : Notice := .fault ⟨BitVec.ofNat 8 f.group, 3, 1⟩

theorem State.releaseStoreFaults_eq (s : State) (p : Nat → Bool) : s.releaseStoreFaults p =
    (s.handAll ((s.monitor.storeFaults.filter fun f => p f.period).map StoreFault.notice)).withMonitor
      { s.monitor with storeFaults := s.monitor.storeFaults.filter fun f => !p f.period } := by
  rw [← State.handAll_withMonitor]
  unfold State.releaseStoreFaults State.handAll
  rw [List.foldl_map]
  rfl

theorem State.closeFaults_window (h : s.period % 480 = 0) : s.closeFaults = s := by
  unfold State.closeFaults
  rw [decide_eq_true h, Bool.or_true, if_pos rfl]

theorem State.closeFaults_between (hfull : s.monitor.full = false) (h : s.period % 480 ≠ 0) : s.closeFaults
    = (s.handAll (s.monitor.storeFaults.map StoreFault.notice)).withMonitor { s.monitor with storeFaults := [] } := by
  unfold State.closeFaults
  rw [decide_eq_false h, hfull, if_neg (by decide), State.releaseStoreFaults_eq]
  simp only [Bool.not_true, List.filter_false, List.filter_true]

/-! ### The judgement of one group (R114 to R117) -/

/-- A group's monitor after the silence judgement of its window, and the FAULT that it hands. -/
def GroupMonitor.silenceOf (g : GroupMonitor) (c : ConfigRecord) : GroupMonitor × Option Bool :=
  g.judgeSilence (c.deadAir * 100) (g.window.silent c.threshold)

/-- A group's monitor after the judgement of its window. -/
def GroupMonitor.judged (g : GroupMonitor) (c : ConfigRecord) : GroupMonitor :=
  if g.window.wholeLive = true then { ((g.silenceOf c).1.judgeOverload g.window.overload).1 with window := {} }
  else { g with window := {} }

theorem GroupMonitor.judged_live {g : GroupMonitor} (h : g.window.wholeLive = true) (c : ConfigRecord) :
    g.judged c = { ((g.silenceOf c).1.judgeOverload g.window.overload).1 with window := {} } := if_pos h

theorem GroupMonitor.judged_notLive {g : GroupMonitor} (h : g.window.wholeLive = false) (c : ConfigRecord) :
    g.judged c = { g with window := {} } := if_neg (by rw [h]; decide)

theorem GroupMonitor.judgeSilence_sounds {g : GroupMonitor} (h : g.state ≠ .suspended) (n : Nat) :
    (g.judgeSilence n false).1 = { g with silence := 0, state := .sounding } := by
  unfold GroupMonitor.judgeSilence
  cases hs : g.state with
  | suspended => exact absurd hs h
  | sounding | silent | deadAir => simp [← hs]

/-- The FAULT of the silence judgement says which way the state crossed DEAD_AIR. -/
theorem GroupMonitor.judgeSilence_fault (g : GroupMonitor) (n : Nat) (b : Bool) : (g.judgeSilence n b).2
    = if (g.judgeSilence n b).1.state = .deadAir ∧ g.state ≠ .deadAir then some true
      else if (g.judgeSilence n b).1.state = .sounding ∧ g.state = .deadAir then some false else none := by
  unfold GroupMonitor.judgeSilence
  cases hs : g.state <;> cases b
  all_goals simp [hs]
  all_goals split <;> simp

theorem GroupMonitor.judgeSilence_keeps (g : GroupMonitor) (n : Nat) (b : Bool) :
    (g.judgeSilence n b).1.overloadRun = g.overloadRun ∧ (g.judgeSilence n b).1.overloadFlag = g.overloadFlag := by
  unfold GroupMonitor.judgeSilence
  cases g.state <;> cases b
  all_goals simp
  all_goals split <;> simp

theorem GroupMonitor.judgeOverload_keeps (g : GroupMonitor) (mark : Bool) :
    (g.judgeOverload mark).1.state = g.state ∧ (g.judgeOverload mark).1.silence = g.silence
      ∧ (g.judgeOverload mark).1.deadAirFlag = g.deadAirFlag := by
  unfold GroupMonitor.judgeOverload
  split <;> split <;> exact ⟨rfl, rfl, rfl⟩

theorem GroupMonitor.judgeOverload_fault (g : GroupMonitor) (mark : Bool) : (g.judgeOverload mark).2
    = if mark = true ∧ g.overloadRun = 2 then some true else if mark = false ∧ g.overloadRun = 3 then some false else none := by
  unfold GroupMonitor.judgeOverload
  cases mark
  all_goals
    simp
    split <;> rfl

/-- A FAULT, when there is one. -/
def faultList (group kind : Nat) (b : Option Bool) : List Notice := b.toList.map (faultNotice group kind)

theorem State.handFault_eq (s : State) (group kind : Nat) (b : Option Bool) :
    s.handFault group kind b = s.handAll (faultList group kind b) := by
  cases b <;> rfl

/-- The FAULTs of a group's judgement are those that the change from `g` to its judged monitor names. -/
theorem windowFaults_judged (group : Nat) (g : GroupMonitor) (c : ConfigRecord) (h : g.window.wholeLive = true) :
    windowFaults group g (g.judged c)
      = faultList group 1 (g.silenceOf c).2 ++ faultList group 2 ((g.silenceOf c).1.judgeOverload g.window.overload).2 := by
  have hfault : (g.silenceOf c).2 = _ := g.judgeSilence_fault (c.deadAir * 100) (g.window.silent c.threshold)
  obtain ⟨hrun, _⟩ := g.judgeSilence_keeps (c.deadAir * 100) (g.window.silent c.threshold)
  have hover := (g.silenceOf c).1.judgeOverload_fault g.window.overload
  obtain ⟨hstate, _⟩ := (g.silenceOf c).1.judgeOverload_keeps g.window.overload
  rw [show (g.silenceOf c).1.overloadRun = g.overloadRun from hrun] at hover
  have hjudged : (g.judged c).state = (g.silenceOf c).1.state := by
    rw [GroupMonitor.judged_live h]
    exact hstate
  unfold windowFaults
  rw [if_pos h, hjudged, hfault, hover]
  change _ = faultList group 1 (if (g.silenceOf c).1.state = .deadAir ∧ g.state ≠ .deadAir then some true
      else if (g.silenceOf c).1.state = .sounding ∧ g.state = .deadAir then some false else none) ++ _
  congr 1
  · split
    · rfl
    · split <;> rfl
  · split
    · rfl
    · split <;> rfl

theorem State.judgeGroup_eq (s : State) (a : Fin 3) : s.judgeGroup a
    = (s.setGroup a (s.monitor.groups[a].judged s.cfg)).handAll
        (windowFaults (a.val + 1) s.monitor.groups[a] (s.monitor.groups[a].judged s.cfg)) := by
  unfold State.judgeGroup
  dsimp only
  split
  · rename_i h
    rw [windowFaults_judged _ _ _ h, State.handAll_append, State.handFault_eq, State.handFault_eq, GroupMonitor.judged_live h]
    rfl
  · rename_i h
    rw [windowFaults, if_neg h, GroupMonitor.judged, if_neg h]
    rfl

/-- The judgement of a group whose monitor stands as in `s`, whatever became of the others. -/
theorem State.judgeGroup_on (s : State) (m : Monitor) (a : Fin 3) : (s.withMonitor m).judgeGroup a
    = (s.handAll (windowFaults (a.val + 1) m.groups[a] (m.groups[a].judged s.cfg))).withMonitor
        { m with groups := m.groups.set a (m.groups[a].judged s.cfg) } :=
  (State.judgeGroup_eq _ a).trans (s.handAll_withMonitor _ _)

/-- The FAULTs of a full window, in the order A, B, C (R119). -/
def State.judgedFaults (s : State) : List Notice :=
  windowFaults 1 s.monitor.groups[0] (s.monitor.groups[0].judged s.cfg)
    ++ windowFaults 2 s.monitor.groups[1] (s.monitor.groups[1].judged s.cfg)
    ++ windowFaults 3 s.monitor.groups[2] (s.monitor.groups[2].judged s.cfg)

/-- The three groups' monitors after the judgement. -/
def State.judgedGroups (s : State) : Vector GroupMonitor 3 := s.monitor.groups.map fun g => g.judged s.cfg

theorem State.foldl_judgeGroup (s : State) : allAir.foldl State.judgeGroup s
    = (s.handAll s.judgedFaults).withMonitor { s.monitor with groups := s.judgedGroups } := by
  have hcfg (u : State) (ns : List Notice) : (u.handAll ns).cfg = u.cfg := (congrArg State.cfg (u.handAll_frame ns)).trans rfl
  have hgroups : ((s.monitor.groups.set 0 (s.monitor.groups[0].judged s.cfg)).set 1 (s.monitor.groups[1].judged s.cfg)).set 2
      (s.monitor.groups[2].judged s.cfg) = s.judgedGroups := by
    ext i hi
    simp only [State.judgedGroups, Vector.getElem_set, Vector.getElem_map]
    interval_cases i <;> rfl
  calc allAir.foldl State.judgeGroup s = (((s.withMonitor s.monitor).judgeGroup 0).judgeGroup 1).judgeGroup 2 := rfl
    _ = _ := by
      rw [State.judgeGroup_on, State.judgeGroup_on, State.judgeGroup_on, ← State.handAll_append, ← State.handAll_append,
        ← hgroups, State.judgedFaults]
      simp [hcfg]

/-- The notices that a full window hands: its FAULTs, then the STORE FAULTs of earlier sample periods (R119). -/
def State.windowNotices (s : State) : List Notice :=
  s.judgedFaults ++ (s.monitor.storeFaults.filter fun f => decide (f.period < s.period)).map StoreFault.notice

/-- The monitor after a full window. -/
def State.windowMonitor (s : State) : Monitor :=
  { s.monitor with
    groups := s.judgedGroups, full := false
    storeFaults := s.monitor.storeFaults.filter fun f => !decide (f.period < s.period) }

theorem State.monitorWindowAt_full (h : s.monitor.full = true) :
    s.monitorWindowAt = (s.handAll s.windowNotices).withMonitor s.windowMonitor := by
  unfold State.monitorWindowAt
  rw [if_pos h, State.foldl_judgeGroup, State.releaseStoreFaults_eq, State.handAll_withMonitor, State.windowNotices,
    State.handAll_append]
  rfl

/-! ### The tables of 6.5 and 6.6 -/

theorem GroupMonitor.judged_sounding {g : GroupMonitor} {c : ConfigRecord} (h : g.window.wholeLive = true)
    (hsilent : g.window.silent c.threshold = false) (hstate : g.state ≠ .suspended) :
    (g.judged c).silence = 0 ∧ (g.judged c).state = .sounding ∧ (g.judged c).deadAirFlag = g.deadAirFlag := by
  obtain ⟨kstate, ksilence, kflag⟩ := (g.silenceOf c).1.judgeOverload_keeps g.window.overload
  rw [GroupMonitor.judged_live h]
  refine ⟨ksilence.trans ?_, kstate.trans ?_, kflag.trans ?_⟩ <;> unfold GroupMonitor.silenceOf <;>
    rw [hsilent, GroupMonitor.judgeSilence_sounds hstate]

theorem GroupMonitor.judged_silent {g : GroupMonitor} {c : ConfigRecord} (h : g.window.wholeLive = true)
    (hsilent : g.window.silent c.threshold = true) (hstate : g.state = .sounding ∨ g.state = .silent) :
    (g.judged c).silence = (if g.state = .sounding then 1 else g.silence + 1)
      ∧ (g.judged c).state = (if c.deadAir * 100 ≤ (g.judged c).silence then .deadAir else .silent)
      ∧ (g.judged c).deadAirFlag = (g.deadAirFlag || decide (c.deadAir * 100 ≤ (g.judged c).silence)) := by
  obtain ⟨kstate, ksilence, kflag⟩ := (g.silenceOf c).1.judgeOverload_keeps g.window.overload
  rw [GroupMonitor.judged_live h]
  dsimp only
  rw [kstate, ksilence, kflag]
  obtain hs | hs := hstate
  · by_cases hn : c.deadAir * 100 ≤ 1 <;> simp [GroupMonitor.silenceOf, GroupMonitor.judgeSilence, hsilent, hs, hn]
  · by_cases hn : c.deadAir * 100 ≤ g.silence + 1 <;> simp [GroupMonitor.silenceOf, GroupMonitor.judgeSilence, hsilent, hs, hn]

theorem GroupMonitor.judged_deadAir {g : GroupMonitor} {c : ConfigRecord} (h : g.window.wholeLive = true)
    (hsilent : g.window.silent c.threshold = true) (hstate : g.state = .deadAir) :
    (g.judged c).silence = g.silence ∧ (g.judged c).state = .deadAir ∧ (g.judged c).deadAirFlag = g.deadAirFlag := by
  obtain ⟨kstate, ksilence, kflag⟩ := (g.silenceOf c).1.judgeOverload_keeps g.window.overload
  have hsame : (g.silenceOf c).1 = g := by simp [GroupMonitor.silenceOf, GroupMonitor.judgeSilence, hsilent, hstate]
  rw [GroupMonitor.judged_live h]
  rw [hsame] at kstate ksilence kflag ⊢
  exact ⟨ksilence, kstate.trans hstate, kflag⟩

theorem GroupMonitor.judged_overload {g : GroupMonitor} {c : ConfigRecord} (h : g.window.wholeLive = true) :
    (g.judged c).overloadRun = (if g.window.overload then min 3 (g.overloadRun + 1) else 0)
      ∧ (g.judged c).overloadFlag = (g.overloadFlag || (g.window.overload && decide (g.overloadRun = 2))) := by
  obtain ⟨krun, kflag⟩ := g.judgeSilence_keeps (c.deadAir * 100) (g.window.silent c.threshold)
  change (g.silenceOf c).1.overloadRun = _ at krun
  change (g.silenceOf c).1.overloadFlag = _ at kflag
  rw [GroupMonitor.judged_live h]
  unfold GroupMonitor.judgeOverload
  rw [krun]
  cases g.window.overload with
  | true =>
    by_cases h2 : g.overloadRun = 2
    · simp [h2]
    · simp [h2, kflag]
  | false => by_cases h3 : g.overloadRun = 3 <;> simp [h3, kflag]

theorem State.judgedGroups_get (s : State) (a : Fin 3) : s.judgedGroups[a] = s.monitor.groups[a].judged s.cfg :=
  Vector.getElem_map ..

/-- Settles O18: a full window's judgement in normal form, then the tables group by group. -/
theorem monitorWindowJudgesEachGroup : Obligations.MonitorWindowJudgesEachGroup := by
  refine ⟨fun s hfull => ⟨State.closeFaults_window, fun h => ?_⟩, fun s hrun => ⟨fun hfull => ?_, fun hfull => ?_⟩⟩
  · rw [State.closeFaults_between hfull h, ← State.handAll_withMonitor]
    rfl
  · rw [exec_monitorWindow hrun, State.monitorWindowAt_eq_self hfull]
  · refine ⟨_, (exec_monitorWindow hrun).trans (congrArg _ (State.monitorWindowAt_full hfull)), rfl, rfl, ?_, fun hlive => ?_, ?_, ?_,
      fun a => ?_⟩
    · exact List.filter_congr fun f _ => by rw [← decide_not]; exact decide_eq_decide.mpr Nat.not_lt
    · rw [State.handAll_notLive hlive]
      exact ⟨rfl, rfl⟩
    · have hfaults : windowFaults 1 s.monitor.groups[0] s.judgedGroups[0] ++ windowFaults 2 s.monitor.groups[1] s.judgedGroups[1]
          ++ windowFaults 3 s.monitor.groups[2] s.judgedGroups[2] = s.judgedFaults := by
        simp only [State.judgedFaults, State.judgedGroups, Vector.getElem_map]
      have hhanded : State.handAll s _ = s.handAll s.windowNotices :=
        congrArg (fun l => s.handAll (l ++ (s.monitor.storeFaults.filter fun f => decide (f.period < s.period)).map StoreFault.notice))
          hfaults
      exact ⟨(congrArg State.bus hhanded).symm, (congrArg State.log hhanded).symm⟩
    · rw [s.handAll_frame s.windowNotices]
      rfl
    · have hgroup : ((s.handAll s.windowNotices).withMonitor s.windowMonitor).monitor.groups[a] = s.monitor.groups[a].judged s.cfg :=
        s.judgedGroups_get a
      dsimp only
      rw [hgroup]
      refine ⟨?_, fun h => GroupMonitor.judged_notLive h _, GroupMonitor.judged_sounding, GroupMonitor.judged_silent,
        GroupMonitor.judged_deadAir, fun h _ => GroupMonitor.judged_overload h⟩
      unfold GroupMonitor.judged
      split <;> rfl

end Sys2Proof.Machine
end


section
/-! Laws of the control period's computation (5.3 to 5.6) and of the sample period (4.4, 6.1 to 6.4). -/

namespace Sys2Proof.Machine

variable {s t u : State}

/-! ### One deck's computation (R88, R102) -/

/-- A sounding deck with its duck value one step nearer its target; any other as it stands. -/
def State.steppedDeck (s : State) (d : DeckNo) : Deck :=
  match (s.deck d).sounding, (s.deck d).item with
  | true, some it => { s.deck d with
      duckValue := stepDuck s.mix.duckBase[d] (s.duckTarget d it)
        (stepOf s.cfg.attack (s.domain it.group)) (stepOf s.cfg.release (s.domain it.group)) }
  | _, _ => s.deck d

/-- A sounding deck's new gain word at its stepped duck value; any other's as it stands. -/
def State.steppedWord (s : State) (d : DeckNo) : Nat :=
  match (s.deck d).sounding, (s.deck d).item with
  | true, some it => newGainWord it.trim (if it.group = 0 then none else some s.mix.master) s.mix.levels[it.group]
      (s.steppedDeck d).duckValue ((s.deck d).fadeTerm it)
  | _, _ => s.mix.newWord[d]

/-- A state with other decks and other new gain words. -/
def State.withComputed (s : State) (ds : Vector Deck 4) (ws : Vector Nat 4) : State :=
  { s with decks := ds, mix := { s.mix with newWord := ws } }

theorem vector_set_self {α : Type} {n : Nat} (v : Vector α n) (i : Fin n) : v.set i v[i] = v := by
  ext j hj
  rw [Vector.getElem_set]
  split
  · rename_i h
    subst h
    rfl
  · rfl

theorem State.setDeck_self (s : State) (d : DeckNo) : s.decks.set d (s.deck d) = s.decks := vector_set_self _ _

theorem State.computeDeck_eq (s : State) (d : DeckNo) :
    s.computeDeck d = s.withComputed (s.decks.set d (s.steppedDeck d)) (s.mix.newWord.set d (s.steppedWord d)) := by
  have hsame : s = s.withComputed (s.decks.set d (s.deck d)) (s.mix.newWord.set d s.mix.newWord[d]) := by
    rw [s.setDeck_self, vector_set_self]
    rfl
  cases hsound : (s.deck d).sounding with
  | false =>
    simp only [State.computeDeck, State.steppedDeck, State.steppedWord, hsound]
    exact hsame
  | true =>
    cases hitem : (s.deck d).item with
    | none =>
      simp only [State.computeDeck, State.steppedDeck, State.steppedWord, hsound, hitem]
      exact hsame
    | some it =>
      simp only [State.computeDeck, State.steppedDeck, State.steppedWord, hsound, hitem, State.deckWordOf, State.deck_setDeck_self]
      rfl

theorem State.deck_withComputed (s : State) (ds : Vector Deck 4) (ws : Vector Nat 4) (d : DeckNo) :
    (s.withComputed ds ws).deck d = ds[d] := rfl

theorem State.deck_computeDeck (s : State) (d e : DeckNo) :
    (s.computeDeck d).deck e = if d = e then s.steppedDeck d else s.deck e := by
  rw [State.computeDeck_eq, State.deck_withComputed]
  exact s.deck_setDeck d e _

theorem State.newWord_computeDeck (s : State) (d e : DeckNo) :
    (s.computeDeck d).mix.newWord[e] = if d = e then s.steppedWord d else s.mix.newWord[e] := by
  rw [State.computeDeck_eq]
  simp only [State.withComputed, Fin.getElem_fin, Vector.getElem_set, Fin.val_inj]

/-- A deck's step reads its own deck, and of the other decks nothing that a computation changes. -/
theorem State.steppedDeck_withComputed {ds : Vector Deck 4} {d : DeckNo} (h : ds[d] = s.deck d) (ws : Vector Nat 4) :
    (s.withComputed ds ws).steppedDeck d = s.steppedDeck d := by
  have htarget (it : Item) : (s.withComputed ds ws).duckTarget d it = s.duckTarget d it := by
    unfold State.duckTarget State.peerDuck
    rw [State.deck_withComputed, h]
    rfl
  unfold State.steppedDeck
  rw [State.deck_withComputed, h]
  simp only [htarget]
  rfl

theorem State.steppedWord_withComputed {ds : Vector Deck 4} {d : DeckNo} (h : ds[d] = s.deck d) {ws : Vector Nat 4}
    (hw : ws[d] = s.mix.newWord[d]) : (s.withComputed ds ws).steppedWord d = s.steppedWord d := by
  unfold State.steppedWord
  rw [State.steppedDeck_withComputed h, State.deck_withComputed, h]
  dsimp only [State.withComputed]
  rw [hw]

theorem State.stepped_computeDeck {d e : DeckNo} (h : d ≠ e) :
    (s.computeDeck d).steppedDeck e = s.steppedDeck e ∧ (s.computeDeck d).steppedWord e = s.steppedWord e := by
  have hdeck := s.deck_computeDeck d e
  have hword := s.newWord_computeDeck d e
  rw [if_neg h] at hdeck hword
  rw [State.computeDeck_eq] at hdeck hword ⊢
  exact ⟨State.steppedDeck_withComputed hdeck _, State.steppedWord_withComputed hdeck hword⟩

/-! ### The computation of every deck -/

theorem State.foldl_computeDeck_deck (l : List DeckNo) (hl : l.Nodup) (s : State) (e : DeckNo) :
    (l.foldl State.computeDeck s).deck e = if e ∈ l then s.steppedDeck e else s.deck e := by
  induction l generalizing s with
  | nil => rfl
  | cons d l ih =>
    obtain ⟨hd, hl⟩ := List.nodup_cons.mp hl
    rw [List.foldl_cons, ih hl, State.deck_computeDeck]
    by_cases he : d = e
    · subst he
      simp [hd]
    · rw [(State.stepped_computeDeck he).1]
      simp [he, Ne.symm he]

theorem State.foldl_computeDeck_word (l : List DeckNo) (hl : l.Nodup) (s : State) (e : DeckNo) :
    (l.foldl State.computeDeck s).mix.newWord[e] = if e ∈ l then s.steppedWord e else s.mix.newWord[e] := by
  induction l generalizing s with
  | nil => rfl
  | cons d l ih =>
    obtain ⟨hd, hl⟩ := List.nodup_cons.mp hl
    rw [List.foldl_cons, ih hl, State.newWord_computeDeck]
    by_cases he : d = e
    · subst he
      simp [hd]
    · rw [(State.stepped_computeDeck he).2]
      simp [he, Ne.symm he]

theorem State.foldl_computeDeck_frame (l : List DeckNo) (s : State) : l.foldl State.computeDeck s
    = s.withComputed (l.foldl State.computeDeck s).decks (l.foldl State.computeDeck s).mix.newWord := by
  induction l generalizing s with
  | nil => rfl
  | cons d l ih =>
    rw [List.foldl_cons]
    refine (ih _).trans ?_
    rw [State.computeDeck_eq]
    rfl

theorem State.deck_computeAll (s : State) (d : DeckNo) : s.computeAll.deck d = s.steppedDeck d := by
  rw [State.computeAll, State.foldl_computeDeck_deck _ (by decide), if_pos (mem_allDecks d)]

theorem State.newWord_computeAll (s : State) (d : DeckNo) : s.computeAll.mix.newWord[d] = s.steppedWord d := by
  rw [State.computeAll, State.foldl_computeDeck_word _ (by decide), if_pos (mem_allDecks d)]

theorem State.computeAll_frame (s : State) : s.computeAll = s.withComputed s.computeAll.decks s.computeAll.mix.newWord :=
  State.foldl_computeDeck_frame _ _

theorem State.steppedDeck_sounding {d : DeckNo} {it : Item} (h : (s.deck d).sounding = true) (hit : (s.deck d).item = some it) :
    s.steppedDeck d = { s.deck d with
      duckValue := stepDuck s.mix.duckBase[d] (s.duckTarget d it)
        (stepOf s.cfg.attack (s.domain it.group)) (stepOf s.cfg.release (s.domain it.group)) } := by
  simp only [State.steppedDeck, h, hit]

theorem State.steppedWord_sounding {d : DeckNo} {it : Item} (h : (s.deck d).sounding = true) (hit : (s.deck d).item = some it) :
    s.steppedWord d = newGainWord it.trim (if it.group = 0 then none else some s.mix.master) s.mix.levels[it.group]
      (s.steppedDeck d).duckValue ((s.deck d).fadeTerm it) := by
  simp only [State.steppedWord, h, hit]

theorem State.steppedDeck_quiet {d : DeckNo} (h : (s.deck d).sounding = false) : s.steppedDeck d = s.deck d := by
  simp only [State.steppedDeck, h]

theorem State.steppedWord_quiet {d : DeckNo} (h : (s.deck d).sounding = false) : s.steppedWord d = s.mix.newWord[d] := by
  simp only [State.steppedWord, h]

/-- A step changes nothing of a deck but its duck value. -/
theorem State.steppedDeck_frame (s : State) (d : DeckNo) :
    s.steppedDeck d = { s.deck d with duckValue := (s.steppedDeck d).duckValue } := by
  unfold State.steppedDeck
  split <;> rfl

theorem State.computed_computeAll (s : State) : s.Computed s.computeAll fun d => s.mix.duckBase[d] where
  sounding d it h hit := by
    rw [State.deck_computeAll, State.newWord_computeAll, State.steppedWord_sounding h hit, State.steppedDeck_sounding h hit]
    exact ⟨rfl, rfl⟩
  silent d h := by
    rw [State.deck_computeAll, State.newWord_computeAll, State.steppedWord_quiet h, State.steppedDeck_quiet h]
    exact ⟨rfl, rfl⟩

theorem State.duckBase_saveDucks (s : State) (d : DeckNo) : s.saveDucks.mix.duckBase[d] = (s.deck d).duckValue := by
  fin_cases d <;> rfl

theorem State.controlPeriodAt_due (h : s.controlDue = true) :
    s.controlPeriodAt = { s.saveDucks.computeAll with controlDone := true } := if_pos h

/-- Settles O16: the computation deck by deck, from the values saved before it. -/
theorem controlPeriodComputesEachDeck : Obligations.ControlPeriodComputesEachDeck := by
  refine ⟨fun s hrun => ⟨fun hdue => ?_, fun hdue => ?_⟩, fun s hindex hdone => ?_⟩
  · have hcomputed := s.saveDucks.computed_computeAll
    have hanswer := (exec_controlPeriod hrun).trans (congrArg _ (State.controlPeriodAt_due hdue))
    rw [s.saveDucks.computeAll_frame] at hcomputed hanswer
    generalize s.saveDucks.computeAll.decks = ds, s.saveDucks.computeAll.mix.newWord = ws at hcomputed hanswer
    refine ⟨_, hanswer, ⟨fun d it h hit => ?_, fun d h => hcomputed.silent d h⟩, s.duckBase_saveDucks, rfl⟩
    have hstep := hcomputed.sounding d it h hit
    simp only [State.duckBase_saveDucks] at hstep
    exact hstep
  · rw [exec_controlPeriod hrun, State.controlPeriodAt, hdue, if_neg (by decide)]
  · have hcomputed := s.computed_computeAll
    have hsettle : s.settleControl = s.computeAll := if_pos ⟨hindex, hdone⟩
    rw [s.computeAll_frame] at hcomputed hsettle
    dsimp only
    rw [hsettle]
    exact ⟨hcomputed, rfl⟩

/-! ### The close of a sample period -/

theorem State.settleControl_frame (s : State) : s.settleControl = s.withComputed s.settleControl.decks s.settleControl.mix.newWord := by
  unfold State.settleControl
  split
  · exact s.computeAll_frame
  · rfl

theorem State.deck_settleControl (s : State) (d : DeckNo) :
    s.settleControl.deck d = { s.deck d with duckValue := (s.settleControl.deck d).duckValue }
      ∧ ((s.deck d).sounding = false → s.settleControl.deck d = s.deck d) := by
  unfold State.settleControl
  split
  · rw [State.deck_computeAll]
    exact ⟨s.steppedDeck_frame d, State.steppedDeck_quiet⟩
  · exact ⟨rfl, fun _ => rfl⟩

/-- A state with another bus, log and list of interval expiries. -/
def State.withBusParts (u s : State) : State := { u with bus := s.bus, log := s.log, intervals := s.intervals }

theorem State.judgeOffer_busParts (s : State) : s.judgeOffer = s.withBusParts s.judgeOffer := by
  rw [s.judgeOffer_frame]
  rfl

theorem State.endFlown_frame (s : State) : s.endFlown = s.withBusParts s.endFlown := by
  unfold State.endFlown
  split
  · rfl
  · split
    · unfold State.toldDropped State.unoffer
      split
      · generalize (s.modBus _).log = l
        exact State.judgeOffer_busParts _
      · exact State.judgeOffer_busParts _
    · rfl

theorem State.judgeQuiet_frame (s : State) : s.judgeQuiet = s.withBusParts s.judgeQuiet := by
  unfold State.judgeQuiet
  split <;> rfl

theorem State.endFlag_frame (s : State) : s.endFlag = s.withBusParts s.endFlag := by
  unfold State.endFlag
  split
  · rw [State.judgeQuiet_frame, State.endFlown_frame]
    rfl
  all_goals rfl

/-- A state with another bus, log and list of STORE FAULTs that wait. -/
def State.withFaults (u s : State) : State :=
  { u with bus := s.bus, log := s.log, monitor := { u.monitor with storeFaults := s.monitor.storeFaults } }

theorem State.closeFaults_frame (s : State) : s.closeFaults = s.withFaults s.closeFaults := by
  unfold State.closeFaults
  split
  · rfl
  · rw [State.releaseStoreFaults_eq, State.handAll_frame]
    rfl

/-- A state with all that the close of a sample period may change. -/
def State.closedAs (s : State) (ds : Vector Deck 4) (ws : Vector Nat 4) (b : CueBus) (l : AsRunLog) (is : List IntervalExpiry)
    (fs : List StoreFault) : State :=
  { s with
    decks := ds, mix := { s.mix with newWord := ws }, bus := b, log := l, intervals := is
    monitor := { s.monitor with storeFaults := fs } }

theorem State.closePeriod_frame (s : State) : s.closePeriod = s.closedAs s.settleControl.decks s.settleControl.mix.newWord
    s.closePeriod.bus s.closePeriod.log s.settleControl.endFlag.intervals s.closePeriod.monitor.storeFaults :=
  calc s.closePeriod = s.settleControl.endFlag.withFaults s.closePeriod := State.closeFaults_frame _
    _ = (s.settleControl.withBusParts s.settleControl.endFlag).withFaults s.closePeriod :=
        congrArg (fun x : State => x.withFaults s.closePeriod) (State.endFlag_frame _)
    _ = _ := congrArg (fun x : State => (x.withBusParts s.settleControl.endFlag).withFaults s.closePeriod) s.settleControl_frame

/-! ### UNDERRUN (R67) -/

/-- The frame that a deck should hand for the record with a tag is missing. -/
def State.misses (s : State) (tag : Nat) (d : DeckNo) : Bool :=
  (s.deck d).sounding && (s.deck d).bound == some tag && (s.deck d).item.isSome
    && ((s.deck d).filledBlock ((s.deck d).p / 1024)).isNone

/-- A record with UNDERRUN set. -/
def CueRecord.withUnderrun (r : CueRecord) : CueRecord := { r with flags := { r.flags with underrun := true } }

theorem State.markUnderrun_eq (s : State) (d : DeckNo) : s.markUnderrun d
    = { s with records := s.records.map fun r => if s.misses r.tag d = true then r.withUnderrun else r } := by
  unfold State.markUnderrun
  dsimp only
  split
  · rename_i it tag hsound hitem hbound
    unfold State.misses
    rw [hsound, hitem, hbound, Deck.frame, Option.isNone_map]
    cases ((s.deck d).filledBlock ((s.deck d).p / 1024)).isNone with
    | false => simp
    | true =>
      simp only [if_true, State.modRecord, Bool.true_and, Option.isSome_some, Bool.and_true, beq_iff_eq, Option.some.injEq]
      congr 1
      exact List.map_congr_left fun r _ => by simp only [eq_comm (a := r.tag)]; rfl
  · rename_i hnone
    have hno (tag : Nat) : s.misses tag d = false := by
      unfold State.misses
      cases hsound : (s.deck d).sounding with
      | false => rfl
      | true =>
        cases hitem : (s.deck d).item with
        | none => simp
        | some it =>
          cases hbound : (s.deck d).bound with
          | none => simp
          | some tag => exact absurd hbound (hnone it tag hsound hitem)
    simp [hno]

theorem State.foldl_markUnderrun (l : List DeckNo) (s : State) : l.foldl State.markUnderrun s
    = { s with records := s.records.map fun r => if l.any (s.misses r.tag) = true then r.withUnderrun else r } := by
  induction l generalizing s with
  | nil => simp
  | cons d l ih =>
    rw [List.foldl_cons, ih, State.markUnderrun_eq]
    simp only [List.map_map]
    congr 1
    refine List.map_congr_left fun r _ => ?_
    have htag : (if s.misses r.tag d = true then r.withUnderrun else r).tag = r.tag := by split <;> rfl
    change (if l.any (s.misses (if s.misses r.tag d = true then r.withUnderrun else r).tag) = true
      then (if s.misses r.tag d = true then r.withUnderrun else r).withUnderrun
      else if s.misses r.tag d = true then r.withUnderrun else r) = _
    rw [htag, List.any_cons]
    cases s.misses r.tag d with
    | false => rfl
    | true => exact ite_self r.withUnderrun

/-! ### The mix (R106 to R113) -/

/-- A group's monitor with this sample period's sent frame in its window record (R113). -/
def State.recordedGroup (s : State) (w : Nat) (a : Fin 3) : GroupMonitor :=
  { s.monitor.groups[a] with
    window := s.monitor.groups[a].window.record ((s.groupSum a.succ).saturated.gated w) (s.groupSounds a.succ)
      (decide ((s.groupSum a.succ).saturated ≠ s.groupSum a.succ)) s.isLive }

/-- The frames that leave at a gate weight (R106 to R110). -/
def State.outputsAt (s : State) (w : Nat) : Outputs :=
  { airA := (s.groupSum 1).saturated.gated w, airB := (s.groupSum 2).saturated.gated w
    airC := (s.groupSum 3).saturated.gated w, audition := (s.groupSum 0).saturated }

theorem State.recordWindow_on (s : State) (m : Monitor) (a : Fin 3) (g : Group) (f : StereoFrame) :
    (s.withMonitor m).recordWindow a g f = s.withMonitor { m with groups := m.groups.set a { m.groups[a] with
      window := m.groups[a].window.record f (s.groupSounds g) (decide ((s.groupSum g).saturated ≠ s.groupSum g)) s.isLive } } := rfl

theorem State.mixOut_eq (s : State) : s.mixOut = { s with
    mix := { s.mix with gate := s.mix.gate.move }
    out := some (s.outputsAt s.mix.gate.move.weight)
    monitor := { s.monitor with groups := Vector.ofFn (s.recordedGroup s.mix.gate.move.weight) } } := by
  have hgroups : ((s.monitor.groups.set 0 (s.recordedGroup s.mix.gate.move.weight 0)).set 1
      (s.recordedGroup s.mix.gate.move.weight 1)).set 2 (s.recordedGroup s.mix.gate.move.weight 2)
      = Vector.ofFn (s.recordedGroup s.mix.gate.move.weight) := by
    ext i hi
    simp only [Vector.getElem_set, Vector.getElem_ofFn]
    interval_cases i <;> rfl
  have hB (g : GroupMonitor) : (s.monitor.groups.set (0 : Fin 3) g)[(1 : Fin 3)] = s.monitor.groups[(1 : Fin 3)] :=
    Vector.getElem_set_ne (h := by decide) ..
  have hC (g k : GroupMonitor) : ((s.monitor.groups.set (0 : Fin 3) g).set (1 : Fin 3) k)[(2 : Fin 3)] = s.monitor.groups[(2 : Fin 3)] :=
    (Vector.getElem_set_ne (h := by decide) ..).trans (Vector.getElem_set_ne (h := by decide) ..)
  unfold State.mixOut
  dsimp only
  rw [← hgroups]
  change ({ ((((s.modGate Gate.move).withMonitor s.monitor).recordWindow 0 1 _).recordWindow 1 2 _).recordWindow 2 3 _ with
    out := some _ } : State) = _
  rw [State.recordWindow_on, State.recordWindow_on, State.recordWindow_on]
  dsimp only
  rw [hB, hC]
  rfl

/-! ### Timers, decks, words -/

/-- The four decks one sample further. -/
def State.advanced (s : State) : Vector Deck 4 := Vector.ofFn fun d : DeckNo => (s.deck d).advance s.isLive

theorem State.advanceDecks_eq (s : State) : s.advanceDecks = { s with decks := s.advanced } := by
  unfold State.advanceDecks State.advanced
  congr 1

theorem State.endControl_eq (s : State) : s.endControl = { s with
    mix := { s.mix with lastWord := if s.controlIndex = 47 then s.mix.newWord else s.mix.lastWord }
    controlDone := if s.controlIndex = 47 then false else s.controlDone } := by
  unfold State.endControl
  split <;> rfl

/-- The skip-silent timers one sample further. -/
def State.steppedTimers (s : State) : Vector Nat 4 := Vector.ofFn s.timerAfter

theorem State.stepTimers_eq (s : State) : s.stepTimers = { s with monitor := { s.monitor with timers := s.steppedTimers } } := by
  unfold State.stepTimers State.steppedTimers
  congr 1

/-- A sample period's own effect, in one piece. -/
theorem State.mixed_eq (s : State) : s.mixed = { s with
    records := s.records.map fun r => if allDecks.any (s.misses r.tag) = true then r.withUnderrun else r
    decks := s.advanced
    mix := { s.mix with
      gate := s.mix.gate.move, lastWord := if s.controlIndex = 47 then s.mix.newWord else s.mix.lastWord }
    controlDone := if s.controlIndex = 47 then false else s.controlDone
    out := some (s.outputsAt s.mix.gate.move.weight)
    monitor := { s.monitor with
      groups := Vector.ofFn (s.recordedGroup s.mix.gate.move.weight), timers := s.steppedTimers } } := by
  unfold State.mixed
  rw [State.foldl_markUnderrun, State.mixOut_eq, State.stepTimers_eq, State.advanceDecks_eq, State.endControl_eq]
  rfl

/-! ### A quiet sample period -/

theorem State.takeDue_quiet (h : s.firstDue = none) (n : Nat) : s.takeDue (n + 1) = s := by
  rw [State.takeDue, h]

theorem State.full_of_firstDue (h : s.firstDue = none) : s.monitor.full = false := by
  unfold State.firstDue at h
  split at h
  · cases h
  split at h
  · cases h
  split at h
  · cases h
  · rename_i hfull
    exact Bool.eq_false_iff.mpr hfull

theorem Deck.advance_sounding {x : Deck} (h : x.sounding = true) (live : Bool) : x.advance live = { x with
    p := x.p + 1, fadeIn := x.fadeIn.map fun f => { f with pos := f.pos + 1 }
    fadeOut := x.fadeOut.map fun f => { f with pos := f.pos + 1 }, aired := if live then x.aired + 1 else x.aired } := if_pos h

theorem Deck.advance_quiet {x : Deck} (h : x.sounding = false) (live : Bool) : x.advance live = x := if_neg (by rw [h]; decide)

/-- In a closed sample period a deck differs from where it stood in its duck value alone, and not at all when it does not sound. -/
def State.DecksKept (s : State) (ds : Vector Deck 4) : Prop :=
  ∀ d : DeckNo, ds[d] = { s.deck d with duckValue := ds[d].duckValue } ∧ ((s.deck d).sounding = false → ds[d] = s.deck d)

section closed

variable {ds : Vector Deck 4} {ws : Vector Nat 4} {b : CueBus} {l : AsRunLog} {is : List IntervalExpiry} {fs : List StoreFault}

theorem State.deck_closedAs (d : DeckNo) : (s.closedAs ds ws b l is fs).deck d = ds[d] := rfl

theorem State.misses_closedAs (h : s.DecksKept ds) (tag : Nat) :
    (s.closedAs ds ws b l is fs).misses tag = s.misses tag := by
  funext d
  unfold State.misses
  rw [State.deck_closedAs, (h d).1]
  rfl

theorem State.groupSounds_closedAs (h : s.DecksKept ds) (g : Group) :
    (s.closedAs ds ws b l is fs).groupSounds g = s.groupSounds g := by
  unfold State.groupSounds
  refine congrArg (List.any allDecks) (funext fun d => ?_)
  rw [State.deck_closedAs, (h d).1]
  rfl

theorem State.timerAfter_closedAs (h : s.DecksKept ds) (d : DeckNo) :
    (s.closedAs ds ws b l is fs).timerAfter d = s.timerAfter d := by
  unfold State.timerAfter
  rw [State.deck_closedAs, (h d).1]
  rfl

theorem State.advance_closedAs (h : s.DecksKept ds) (d : DeckNo) : ds[d].advance s.isLive = if (s.deck d).sounding then
    { ds[d] with
      p := (s.deck d).p + 1, fadeIn := (s.deck d).fadeIn.map fun f => { f with pos := f.pos + 1 }
      fadeOut := (s.deck d).fadeOut.map fun f => { f with pos := f.pos + 1 }
      aired := if s.isLive then (s.deck d).aired + 1 else (s.deck d).aired } else s.deck d := by
  obtain ⟨hkept, hquiet⟩ := h d
  cases hs : (s.deck d).sounding with
  | true =>
    have hsound : ds[d].sounding = true := by rw [hkept]; exact hs
    rw [if_pos rfl, Deck.advance_sounding hsound, hkept]
  | false =>
    rw [hquiet hs, Deck.advance_quiet hs]
    rfl

end closed

theorem State.timerAfter_item {d : DeckNo} {it : Item} (h : (s.deck d).item = some it) :
    s.timerAfter d = let f := (s.deck d).handed it
      if s.isLive = true ∧ (s.deck d).state = .playing ∧ (s.deck d).fadeIn = none
          ∧ f.left.natAbs < s.cfg.threshold ∧ f.right.natAbs < s.cfg.threshold
        then min (s.cfg.skipSilent * 48000) (s.monitor.timers[d] + 1) else 0 := by
  simp only [State.timerAfter, h, StereoFrame.below, Bool.and_eq_true, beq_iff_eq, Option.isNone_iff_eq_none, decide_eq_true_eq,
    and_assoc]

theorem State.timerAfter_noItem {d : DeckNo} (h : (s.deck d).item = none) : s.timerAfter d = 0 := by
  simp only [State.timerAfter, h]

/-- Settles O12: the close in normal form, then the mix field by field. -/
theorem quietSamplePeriodMixes : Obligations.QuietSamplePeriodMixes := by
  intro s hrun hdue
  have hclose := s.closePeriod_frame
  have hkept : s.DecksKept s.settleControl.decks := s.deck_settleControl
  have hfull := State.full_of_firstDue hdue
  have hanswer : exec .samplePeriod s = .next s.closePeriod.tick := by
    rw [exec_samplePeriod hrun]
    exact congrArg (fun x : State => Host.Outcome.next x.closePeriod.tick) (State.takeDue_quiet hdue 511)
  have htick := s.closePeriod.tick_eq
  rw [s.closePeriod.mixed_eq] at htick
  refine ⟨State.closePeriod_eq_self, _, hanswer, ?_⟩
  rw [htick]
  generalize s.closePeriod = x at hclose ⊢
  generalize s.settleControl.decks = ds, s.settleControl.mix.newWord = ws, x.bus = b, x.log = l,
    s.settleControl.endFlag.intervals = is, x.monitor.storeFaults = fs at hclose hkept
  subst hclose
  refine ⟨rfl, rfl, ?_, fun d => ?_, fun a => ?_, fun d it hit => ?_, fun d hno => ?_, ?_, rfl, rfl, rfl, rfl, rfl, rfl, rfl, rfl, rfl,
    ?_, rfl, rfl, rfl, rfl, rfl, rfl, rfl⟩
  · refine List.map_congr_left fun r _ => ?_
    rw [State.misses_closedAs hkept]
    rfl
  · exact (Vector.getElem_ofFn _).trans (State.advance_closedAs hkept d)
  · refine (Vector.getElem_ofFn _).trans ?_
    unfold State.recordedGroup
    rw [State.groupSounds_closedAs hkept]
    rfl
  · exact (Vector.getElem_ofFn _).trans ((State.timerAfter_closedAs hkept d).trans (State.timerAfter_item hit))
  · exact (Vector.getElem_ofFn _).trans ((State.timerAfter_closedAs hkept d).trans (State.timerAfter_noItem hno))
  · exact congrArg (· || decide (s.period % 480 = 0)) hfull
  · refine List.map_map.trans (List.map_congr_left fun r _ => ?_)
    dsimp only [Function.comp_apply]
    split <;> rfl

end Sys2Proof.Machine
end


section
/-! Laws of the Timebase (1.2 to 1.4): the measures of a label, slews, steps, label gaps and slew runs. -/

namespace Sys2Proof.Machine

variable {s t u : State} {c : Clock}

theorem State.AtRest.setInterval (h : s.AtRest) (i : IntervalHandle) (n : Nat) : (s.setInterval i n).AtRest := h

/-! ### Slew runs (R10) -/

theorem Clock.runDone_iff (c : Clock) : c.runDone = true ↔ c.remainder ≠ 0 ∧ 1000 ≤ c.slewRun := by
  rw [Clock.runDone, Bool.and_eq_true, decide_eq_true_iff, decide_eq_true_iff]

theorem State.slewRunAt_done (h : s.clock.runDone = true) : s.slewRunAt = { s with clock := s.clock.completeRun } := if_pos h

/-- A completed run leaves all but the remainder, the run and OFFSET. -/
theorem State.slewRunAt_clock (s : State) :
    ∃ c : Clock, s.slewRunAt = { s with clock := c } ∧ c.airTime = s.clock.airTime ∧ c.day = s.clock.day ∧ c.state = s.clock.state
      ∧ c.good = s.clock.good ∧ c.trim = s.clock.trim ∧ c.rejected = s.clock.rejected ∧ c.pulse = s.clock.pulse := by
  unfold State.slewRunAt
  split
  · exact ⟨s.clock.completeRun, rfl, rfl, rfl, rfl, rfl, rfl, rfl, rfl⟩
  · exact ⟨s.clock, rfl, rfl, rfl, rfl, rfl, rfl, rfl, rfl⟩

/-- Settles O22: the clock states of a label gap, and the run of a slew. -/
theorem labelGapsAndSlewRuns : Obligations.LabelGapsAndSlewRuns := by
  refine ⟨fun s h hdue => ?_, fun s h => ⟨fun hne hrun => ?_, fun hnot => ?_⟩⟩
  · rw [exec_labelGap h, if_pos hdue]
    unfold State.labelGapAt State.cancelInterval
    obtain ⟨air, day, state, good, rest⟩ := s.clock
    cases state <;> rfl
  · refine ⟨s.clock.completeRun.remainder, fun hpos => if_pos hpos, fun hneg => if_neg (by omega), ?_⟩
    rw [exec_slewRun h, State.slewRunAt_done ((Clock.runDone_iff _).mpr ⟨hne, hrun⟩)]
    rfl
  · rw [exec_slewRun h, State.slewRunAt_eq_self (Bool.eq_false_iff.mpr fun hdone => ?_)]
    obtain ⟨hne, hrun⟩ := (Clock.runDone_iff _).mp hdone
    exact hnot.elim hne (Nat.not_lt.mpr hrun)

/-! ### The measures of a label (R6) -/

theorem labelError_cases (a r : Nat) : labelError a r =
    if 2073600000 ≤ (a : Int) - r then ((a : Int) - r - 4147200000, 1)
    else if (a : Int) - r < -2073600000 then ((a : Int) - r + 4147200000, -1) else ((a : Int) - r, 0) := rfl

theorem Clock.measure_error (c : Clock) (p : Pulse) (period : Nat) (day : BitVec 16) (second : Nat) :
    (c.measure p period day second).error = (labelError p.airTime (second * 48000)).1
      ∧ (c.measure p period day second).expected = ((p.day : Int) + (labelError p.airTime (second * 48000)).2) % 65536 := ⟨rfl, rfl⟩

theorem Clock.measure_drift (c : Clock) (p : Pulse) (period : Nat) (day : BitVec 16) (second : Nat) :
    (c.measure p period day second).drift
      = if c.driftDefined period then some ((c.measure p period day second).error - c.remainder) else none := rfl

/-- The measures as R6 gives them. -/
theorem Clock.measure_spec (c : Clock) (p : Pulse) (period : Nat) (day : BitVec 16) (second : Nat) (hair : p.airTime < 4147200000)
    (hsecond : second ≤ 86399) :
    let l := c.measure p period day second
    let raw : Int := (p.airTime : Int) - second * 48000
    (-2073600000 ≤ l.error ∧ l.error < 2073600000) ∧ l.day = day.toNat
    ∧ (2073600000 ≤ raw → l.error = raw - 4147200000 ∧ l.expected = ((p.day : Int) + 1) % 65536)
    ∧ (raw < -2073600000 → l.error = raw + 4147200000 ∧ l.expected = ((p.day : Int) - 1) % 65536)
    ∧ (-2073600000 ≤ raw → raw < 2073600000 → l.error = raw ∧ l.expected = (p.day : Int) % 65536)
    ∧ (c.lastLabel = none → l.drift = none)
    ∧ ∀ x, c.lastLabel = some x →
        l.drift = if period ≤ x.period + 96000 ∧ x.byStep = false then some (l.error - c.remainder) else none := by
  dsimp only
  obtain ⟨herror, hexpected⟩ := c.measure_error p period day second
  have hcases := labelError_cases p.airTime (second * 48000)
  rw [Nat.cast_mul, Nat.cast_ofNat] at hcases
  refine ⟨?_, rfl, fun h => ?_, fun h => ?_, fun hlow hhigh => ?_, fun h => ?_, fun x h => ?_⟩
  · rw [herror, hcases]
    split
    · omega
    · split <;> omega
  · rw [herror, hexpected, hcases, if_pos h]
    exact ⟨rfl, rfl⟩
  · rw [herror, hexpected, hcases, if_neg (by omega), if_pos h]
    exact ⟨rfl, rfl⟩
  · rw [herror, hexpected, hcases, if_neg (by omega), if_neg (by omega)]
    exact ⟨rfl, by rw [Int.add_zero]⟩
  · rw [Clock.measure_drift, Clock.driftDefined, h]
    rfl
  · rw [Clock.measure_drift, Clock.driftDefined, h]
    simp

/-! ### Slews and steps (R10 to R12) -/

/-- The trim after a drift, when one is defined (R12). -/
def trimAfter (trim : Int) (drift : Option Int) : Int :=
  match drift with
  | some d => if d.natAbs ≤ 48 then max (-4800) (min 4800 (trim - 500 * d)) else trim
  | none => trim

theorem Clock.correctTrim_eq (c : Clock) (d : Option Int) : c.correctTrim d = { c with trim := trimAfter c.trim d } := by
  unfold Clock.correctTrim trimAfter
  cases d with
  | none => rfl
  | some d =>
    dsimp only
    split <;> rfl

theorem Clock.slew_eq (c : Clock) (e : Int) :
    ∃ run, c.slew e = { c with remainder := e, slewRun := run, offset := c.offset && decide (e ≠ 0) } := by
  unfold Clock.slew
  split
  · rename_i h
    exact ⟨0, by simp [h]⟩
  · rename_i h
    exact ⟨_, by simp only [h, ne_eq, not_false_eq_true, decide_true, Bool.and_true]; rfl⟩

/-- A label handled by a slew: the remainder is its error, the trim and the day are put right. -/
theorem Clock.slewLabel_eq (c : Clock) (l : Label) : ∃ run, c.slewLabel l = { c with
    remainder := l.error, slewRun := run, offset := c.offset && decide (l.error ≠ 0), trim := trimAfter c.trim l.drift
    day := shiftDay c.day ((l.day : Int) - l.expected) } := by
  obtain ⟨run, hslew⟩ := c.slew_eq l.error
  refine ⟨run, ?_⟩
  rw [Clock.slewLabel, hslew, Clock.correctTrim_eq]

/-! ### A valid label by the clock state (R7 to R9) -/

theorem Clock.acquireLabel_good {l : Label} (h : l.error.natAbs ≤ 2) (sounding : Bool) : c.acquireLabel l sounding
    = ({ c.slewLabel l with
        good := min 3 ((c.slewLabel l).good + 1)
        state := if min 3 ((c.slewLabel l).good + 1) = 3 then .locked else (c.slewLabel l).state }, false) := if_pos h

theorem Clock.acquireLabel_fair {l : Label} (h : 2 < l.error.natAbs) (k : l.error.natAbs ≤ 480) (sounding : Bool) :
    c.acquireLabel l sounding = ({ c.slewLabel l with good := 0 }, false) := (if_neg (Nat.not_le.mpr h)).trans (if_pos k)

theorem Clock.acquireLabel_large {l : Label} (h : 480 < l.error.natAbs) (sounding : Bool) : c.acquireLabel l sounding
    = if sounding then ({ c.slewLabel l with good := 0, offset := true }, false)
      else ({ c.stepBy l.error l.day l.ref with good := 0 }, true) :=
  (if_neg (by omega)).trans (if_neg (by omega))

/-- The clock as ACQUIRE handles a label: its good count starts at 0 from any other state. -/
def Clock.asAcquire (c : Clock) : Clock := { c with state := .acquire, good := if c.state = .acquire then c.good else 0 }

/-- Outside LOCKED with a small error, and outside a silent FREE, a label is handled as in ACQUIRE. -/
theorem Clock.handleLabel_acquire {l : Label} {sounding : Bool} (hfree : c.state = .free → sounding = true)
    (hlocked : c.state = .locked → 480 < l.error.natAbs) : c.handleLabel l sounding = c.asAcquire.acquireLabel l sounding := by
  obtain ⟨air, day, state, good, rest⟩ := c
  cases state with
  | free =>
    obtain rfl := hfree rfl
    rfl
  | acquire => rfl
  | locked => exact if_neg (Nat.not_le.mpr (hlocked rfl))
  | holdover => rfl

theorem Clock.handleLabel_locked {l : Label} (h : c.state = .locked) (hsmall : l.error.natAbs ≤ 480) (sounding : Bool) :
    c.handleLabel l sounding = (c.slewLabel l, false) := by
  simp only [Clock.handleLabel, h, if_pos hsmall]

theorem Clock.handleLabel_free {l : Label} (h : c.state = .free) :
    c.handleLabel l false = (c.toAcquire.stepBy l.error l.day l.ref, true) := by
  simp only [Clock.handleLabel, h, Bool.false_eq_true, if_false]

/-! ### TIME_LABEL with a valid label -/

/-- What the handling of a valid label leaves: the clock with the label recorded, no window, the label gap watched afresh, and after a
step every air-time expiry tested again. -/
def State.labelHandled (s : State) (r : Clock × Bool) : State :=
  let v := (({ s with clock := { r.1 with lastLabel := some ⟨s.period, r.2⟩ } } : State).cancelInterval .labelWindow).setInterval
    .labelGap 144000
  if r.2 then v.emit [.fireDue] else v

/-- The clock that handles a label, a completed run of the slew taken, with its measures. -/
theorem State.validLabel_eq (s : State) (p : Pulse) (day : BitVec 16) (second : Nat) : s.validLabel p day second
    = s.labelHandled (({ s.slewRunAt.clock with pulse := none } : Clock).handleLabel
        (s.slewRunAt.clock.measure p s.period day second) s.anySounding) := by
  obtain ⟨x, hx, _⟩ := s.slewRunAt_clock
  unfold State.validLabel
  rw [hx]
  rfl

theorem exec_timeLabel_valid (hrun : s.phase = .running) {p : Pulse} (hp : s.clock.pulse = some p) (day : BitVec 16) {second : Nat}
    (hsecond : second ≤ 86399) : exec (.timeLabel day second) s = .next (s.validLabel p day second).finish := by
  rw [exec_timeLabel hrun]
  unfold State.timeLabelAt
  rw [hp]
  exact congrArg (fun x : State => Host.Outcome.next x.finish) (if_neg (Nat.not_lt.mpr hsecond))

/-- A label that is slewed leaves the clock that handled it, with the label recorded. -/
theorem exec_timeLabel_slewed (hrun : s.phase = .running) (hrest : s.AtRest) {p : Pulse} (hp : s.clock.pulse = some p) {day : BitVec 16}
    {second : Nat} (hsecond : second ≤ 86399) {k : Clock}
    (h : ({ s.slewRunAt.clock with pulse := none } : Clock).handleLabel (s.slewRunAt.clock.measure p s.period day second) s.anySounding
      = (k, false)) : exec (.timeLabel day second) s
      = .next ((({ s with clock := { k with lastLabel := some ⟨s.period, false⟩ } } : State).cancelInterval .labelWindow).setInterval
        .labelGap 144000) := by
  rw [exec_timeLabel_valid hrun hp day hsecond, State.validLabel_eq, h]
  exact congrArg _ (State.finish_atRest (((hrest.withClock _).cancelInterval _).setInterval _ _))

/-- A label that is handled by a step has every air-time expiry tested again. -/
theorem exec_timeLabel_stepped (hrun : s.phase = .running) {p : Pulse} (hp : s.clock.pulse = some p) {day : BitVec 16}
    {second : Nat} (hsecond : second ≤ 86399) {k : Clock}
    (h : ({ s.slewRunAt.clock with pulse := none } : Clock).handleLabel (s.slewRunAt.clock.measure p s.period day second) s.anySounding
      = (k, true)) : exec (.timeLabel day second) s
      = .next (((({ s with clock := { k with lastLabel := some ⟨s.period, true⟩ } } : State).cancelInterval .labelWindow).setInterval
        .labelGap 144000).emit [.fireDue]).finish := by
  rw [exec_timeLabel_valid hrun hp day hsecond, State.validLabel_eq, h]
  rfl

/-- A small label handled as in ACQUIRE (R8): the slew, the good count, and LOCKED at the third in a row. -/
theorem Clock.acquireLabel_small (c : Clock) {l : Label} (h : l.error.natAbs ≤ 480) (sounding : Bool) :
    ∃ k run, c.asAcquire.acquireLabel l sounding = (k, false)
      ∧ k.good = (if l.error.natAbs ≤ 2 then min 3 ((if c.state = .acquire then c.good else 0) + 1) else 0)
      ∧ k = { c with
          remainder := l.error, slewRun := run, offset := c.offset && decide (l.error ≠ 0), trim := trimAfter c.trim l.drift
          day := shiftDay c.day ((l.day : Int) - l.expected), good := k.good
          state := if k.good = 3 then .locked else .acquire } := by
  obtain ⟨run, hslew⟩ := c.asAcquire.slewLabel_eq l
  by_cases hgood : l.error.natAbs ≤ 2
  · refine ⟨_, run, Clock.acquireLabel_good hgood sounding, ?_, ?_⟩
    · rw [hslew, if_pos hgood]
      rfl
    · rw [hslew]
      rfl
  · refine ⟨_, run, Clock.acquireLabel_fair (Nat.not_le.mp hgood) h sounding, ?_, ?_⟩
    · rw [if_neg hgood]
    · rw [hslew]
      rfl

/-- Settles O20: the measures, then the small labels of a LOCKED clock and of one handled as in ACQUIRE. -/
theorem smallLabelsSlew : Obligations.SmallLabelsSlew := by
  refine ⟨Clock.measure_spec, fun s p day second hrun hrest hfree hp hsecond => ?_⟩
  obtain ⟨x, hx, hair, hday, hstate, hgood, htrim, hrejected, -⟩ := s.slewRunAt_clock
  have hslewed (k : Clock) := exec_timeLabel_slewed hrun hrest hp (day := day) hsecond (k := k)
  rw [hx] at hslewed ⊢
  have hl : (x.measure p s.period day second).day = day.toNat := rfl
  dsimp only at hslewed ⊢
  generalize x.measure p s.period day second = l at hslewed hl ⊢
  intro hsmall
  rw [← hair, ← hrejected, ← hday, ← htrim, ← hstate, ← hgood, ← hl]
  by_cases hlocked : s.clock.state = .locked
  · obtain ⟨run, hslew⟩ := ({ x with pulse := none } : Clock).slewLabel_eq l
    refine ⟨_, hslewed _ (Clock.handleLabel_locked (c := { x with pulse := none }) (hstate.trans hlocked) hsmall _), ?_⟩
    rw [hslew]
    exact ⟨rfl, rfl, rfl, rfl, rfl, rfl, rfl, rfl, fun h => ⟨h, rfl⟩, fun h => absurd (hstate.trans hlocked) h⟩
  · obtain ⟨k, run, hk, hcount, hform⟩ := ({ x with pulse := none } : Clock).acquireLabel_small hsmall s.anySounding
    have hacquire := (Clock.handleLabel_acquire (c := { x with pulse := none }) (l := l) (sounding := s.anySounding)
      (fun h => hfree (hstate.symm.trans h)) (fun h => absurd (hstate.symm.trans h) hlocked)).trans hk
    refine ⟨_, hslewed k hacquire, ?_⟩
    rw [hform]
    exact ⟨rfl, rfl, rfl, rfl, rfl, rfl, rfl, rfl, fun h => absurd (hstate.symm.trans h) hlocked, fun _ => ⟨hcount, rfl⟩⟩

/-- A large label handled as in ACQUIRE. -/
theorem Clock.handleLabel_large {l : Label} (c : Clock) (h : 480 < l.error.natAbs) (sounding : Bool)
    (hfree : c.state = .free → sounding = true) : c.handleLabel l sounding =
      if sounding then ({ c.asAcquire.slewLabel l with good := 0, offset := true }, false)
      else ({ c.asAcquire.stepBy l.error l.day l.ref with good := 0 }, true) := by
  rw [Clock.handleLabel_acquire hfree fun _ => h, Clock.acquireLabel_large h]

/-- In FREE any label, and in the other states a large one, steps a silent clock. -/
theorem Clock.handleLabel_silent {l : Label} (c : Clock) (h : c.state = .free ∨ 480 < l.error.natAbs) :
    c.handleLabel l false = ({ c.asAcquire.stepBy l.error l.day l.ref with good := 0 }, true) := by
  by_cases hstate : c.state = .free
  · exact Clock.handleLabel_free hstate
  · exact c.handleLabel_large (h.resolve_left hstate) false fun hfree => absurd hfree hstate

/-- Settles O21: the step of a silent engine, then the slew of a sounding one. -/
theorem largeLabelsStepOrSlew : Obligations.LargeLabelsStepOrSlew := by
  refine ⟨fun s p day second hrun hquiet hp hsecond => ?_, fun s p day second hrun hrest hsound hp hsecond => ?_⟩
  · obtain ⟨x, hx, hair, -, hstate, -, htrim, hrejected, -⟩ := s.slewRunAt_clock
    have hstepped (k : Clock) := exec_timeLabel_stepped hrun hp (day := day) hsecond (k := k)
    rw [hx] at hstepped ⊢
    have hl : (x.measure p s.period day second).day = day.toNat := rfl
    have href : (x.measure p s.period day second).ref = second * 48000 := rfl
    dsimp only at hstepped ⊢
    generalize x.measure p s.period day second = l at hstepped hl href ⊢
    intro hcase
    rw [hquiet] at hstepped
    refine ⟨_, hstepped _ (Clock.handleLabel_silent _ (hcase.imp_left hstate.trans)), ?_⟩
    rw [← hair, ← hrejected, ← htrim, ← hl, ← href]
    refine ⟨Int.toNat_of_nonneg (Int.emod_nonneg _ (by decide)), rfl, rfl, rfl, rfl, rfl, rfl, rfl, rfl, rfl⟩
  · obtain ⟨x, hx, hair, hday, hstate, -, htrim, hrejected, -⟩ := s.slewRunAt_clock
    have hslewed (k : Clock) := exec_timeLabel_slewed hrun hrest hp (day := day) hsecond (k := k)
    rw [hx] at hslewed ⊢
    have hl : (x.measure p s.period day second).day = day.toNat := rfl
    dsimp only at hslewed ⊢
    generalize x.measure p s.period day second = l at hslewed hl ⊢
    intro hlarge
    rw [hsound] at hslewed
    obtain ⟨run, hslew⟩ := ({ x with pulse := none } : Clock).asAcquire.slewLabel_eq l
    refine ⟨_, hslewed _ (Clock.handleLabel_large _ hlarge true fun _ => rfl), ?_⟩
    rw [← hair, ← hrejected, ← hday, ← htrim, ← hl, hslew]
    exact ⟨rfl, rfl, rfl, rfl, rfl, rfl, rfl, rfl, rfl, rfl⟩

end Sys2Proof.Machine
end


section
/-! Laws of the store reader (chapter 2) and of the rules of a deck that its blocks touch (4.4 to 4.7). -/

namespace Sys2Proof.Machine

variable {s t u : State}

/-! ### The end of a read (R21, R22, R26, R31) -/

/-- The port idle again after a read, its timeout cancelled. -/
def State.readDone (s : State) : State :=
  ({ s with reader := { s.reader with flight := none } } : State).cancelInterval .readTimeout

theorem State.awaits_iff {r : StoreRead} (h : s.reader.flight = some r) (n : Nat) : s.awaits n = true ↔ r.number = n := by
  simp only [State.awaits, h, beq_iff_eq]

theorem State.completionAt_awaited {r : StoreRead} (h : s.reader.flight = some r) {n : Nat} (hn : r.number = n)
    (data : Option (List Byte)) : s.completionAt n data = s.endRead r data := by
  simp only [State.completionAt, h, if_pos hn]

theorem exec_storeCompletion_awaited (hrun : s.phase = .running) {r : StoreRead} (h : s.reader.flight = some r) {n : BitVec 8}
    (hn : r.number = n.toNat) (good : Bool) (data : List Byte) :
    exec (.storeCompletion n good data) s = .next (s.endRead r (if good then some data else none)).finish := by
  rw [exec_storeCompletion hrun, if_pos ((State.awaits_iff h _).mpr hn), State.completionAt_awaited h hn]

theorem exec_storeCompletion_stray (hrun : s.phase = .running) (n : BitVec 8) (good : Bool) (data : List Byte)
    (h : ∀ r, s.reader.flight = some r → r.number ≠ n.toNat) : exec (.storeCompletion n good data) s = .next s := by
  rw [exec_storeCompletion hrun]
  cases hf : s.reader.flight with
  | none => simp only [State.awaits, hf, Bool.false_eq_true, if_false]
  | some r => rw [if_neg fun hn => h r hf ((State.awaits_iff hf _).mp hn)]

theorem exec_readTimeout_due (hrun : s.phase = .running) {r : StoreRead} (h : s.reader.flight = some r)
    (hdue : s.intervalDue .readTimeout = true) : exec .readTimeout s = .next (s.endRead r none).finish := by
  rw [exec_readTimeout hrun, if_pos hdue, State.readTimeoutAt, h]

/-- The two ways in which a read ends BAD (R21, R22). -/
theorem exec_readBad (hrun : s.phase = .running) {r : StoreRead} (h : s.reader.flight = some r) {y : State}
    (hy : (s.endRead r none).finish = y) :
    (∀ (n : BitVec 8) data, r.number = n.toNat → exec (.storeCompletion n false data) s = .next y)
      ∧ (s.intervalDue .readTimeout = true → exec .readTimeout s = .next y) :=
  ⟨fun _ data hn => (exec_storeCompletion_awaited hrun h hn false data).trans (congrArg _ hy),
    fun hdue => (exec_readTimeout_due hrun h hdue).trans (congrArg _ hy)⟩

theorem State.endRead_abandoned {r : StoreRead} (h : r.abandoned = true) (data : Option (List Byte)) :
    s.endRead r data = s.readDone := if_pos h

theorem State.endRead_good {r : StoreRead} (h : r.abandoned = false) (data : List Byte) :
    s.endRead r (some data) = s.readDone.readGood r.purpose data := if_neg (by rw [h]; decide)

theorem State.endRead_first {r : StoreRead} (h : r.abandoned = false) (hr : r.retry = false) :
    s.endRead r none = s.readDone.issue r.purpose r.unit r.units true :=
  (if_neg (by rw [h]; decide)).trans (if_neg (by rw [hr]; decide))

theorem State.endRead_retry {r : StoreRead} (h : r.abandoned = false) (hr : r.retry = true) :
    s.endRead r none = s.readDone.readFailed r.purpose :=
  (if_neg (by rw [h]; decide)).trans (if_pos hr)

/-- An expiry that is set again replaces itself. -/
theorem State.setInterval_cancelInterval (s : State) (i : IntervalHandle) (n : Nat) :
    (s.cancelInterval i).setInterval i n = s.setInterval i n := by
  unfold State.setInterval State.cancelInterval
  simp only [List.filter_filter, Bool.and_self]

/-- Settles O23: the stray, the first BAD and the abandoned read. -/
theorem readsEndByTheirNumber : Obligations.ReadsEndByTheirNumber := by
  refine ⟨fun s n good data hrun h => exec_storeCompletion_stray hrun n good data h, fun s r hrun hwork h hkept hfirst => ?_,
    fun s r hrun h hgone => ?_⟩
  · refine exec_readBad hrun h ?_
    rw [State.endRead_first hkept hfirst]
    have hissued : s.readDone.issue r.purpose r.unit r.units true = ({ s with reader := { s.reader with
        flight := some { r with number := s.reader.nextNumber, retry := true }
        nextNumber := (s.reader.nextNumber + 1) % 256 } } : State).setInterval .readTimeout 960 := by
      obtain ⟨purpose, unit, units, number, retry, abandoned⟩ := r
      obtain rfl : abandoned = false := hkept
      exact State.setInterval_cancelInterval { s with reader := { s.reader with
        flight := some ⟨purpose, unit, units, s.reader.nextNumber, true, false⟩
        nextNumber := (s.reader.nextNumber + 1) % 256 } } .readTimeout 960
    rw [hissued]
    exact State.finish_atRest ⟨hwork, .inl rfl⟩
  · obtain ⟨hbad, htimeout⟩ := exec_readBad hrun h (congrArg State.finish (State.endRead_abandoned hgone none))
    refine ⟨fun n good data hn => ?_, htimeout⟩
    rw [exec_storeCompletion_awaited hrun h hn, State.endRead_abandoned hgone]
    rfl

/-! ### Header fetches (R25) -/

/-- The fetch in progress has ended with an outcome, which its owner is to take. -/
def State.fetchOver (s : State) (f : FetchInProgress) (o : FetchOutcome) : State :=
  (({ s with reader := { s.reader with flight := none, fetch := none } } : State).cancelInterval .readTimeout).emit [.fetchEnded f o]

theorem State.endFetch_readDone {f : FetchInProgress} (h : s.reader.fetch = some f) (o : FetchInProgress → FetchOutcome) :
    s.readDone.endFetch o = s.fetchOver f (o f) := by
  have hfetch : s.readDone.reader.fetch = some f := h
  simp only [State.endFetch, hfetch]
  rfl

theorem State.directoryRead_none {f : FetchInProgress} (h : s.reader.fetch = some f) {data : List Byte}
    (hentry : directoryEntry f.cart data = 0) : s.readDone.directoryRead data = s.fetchOver f (.failed .noCart) := by
  have hfetch : s.readDone.reader.fetch = some f := h
  rw [← State.endFetch_readDone h fun _ => .failed .noCart]
  simp only [State.directoryRead, hfetch, if_pos hentry]

theorem State.directoryRead_some {f : FetchInProgress} (h : s.reader.fetch = some f) {data : List Byte}
    (hentry : directoryEntry f.cart data ≠ 0) : s.readDone.directoryRead data = ({ s with reader := { s.reader with
      flight := none, fetch := some { f with header := some (directoryEntry f.cart data) } } } : State).cancelInterval .readTimeout := by
  have hfetch : s.readDone.reader.fetch = some f := h
  simp only [State.directoryRead, hfetch, if_neg hentry]
  rfl

/-- Settles O24: the two reads by their purpose. -/
theorem headerFetchReadsInTurn : Obligations.HeaderFetchReadsInTurn := by
  intro s r f n data hrun h hkept hfetch hn
  have hgood := exec_storeCompletion_awaited hrun h hn true data
  rw [if_pos rfl, State.endRead_good hkept] at hgood
  refine ⟨fun hp hentry => ?_, fun hp hentry => ?_, fun hp => ?_, fun hretry hp => ?_⟩
  · rw [hgood, hp]
    exact congrArg (fun x : State => Host.Outcome.next x.finish) (State.directoryRead_none hfetch hentry)
  · rw [hgood, hp]
    exact congrArg (fun x : State => Host.Outcome.next x.finish) (State.directoryRead_some hfetch hentry)
  · rw [hgood, hp]
    exact congrArg (fun x : State => Host.Outcome.next x.finish) (State.endFetch_readDone hfetch _)
  · have hfailed : s.endRead r none = s.fetchOver f (.failed .store) := by
      rw [State.endRead_retry hkept hretry]
      obtain hp | hp := hp <;> rw [hp] <;> exact State.endFetch_readDone hfetch _
    obtain ⟨hbad, htimeout⟩ := exec_readBad hrun h (congrArg State.finish hfailed)
    exact ⟨hbad n data hn, htimeout⟩

/-! ### Header snapshots (R18 to R20) -/

theorem foldl_bytes_lt (bs : List Byte) (off a : Nat) (l : List Nat) :
    l.foldl (fun a k => 256 * a + (bs.getD (off + k) 0).toNat) a < 256 ^ l.length * (a + 1) := by
  induction l generalizing a with
  | nil => simp
  | cons k l ih =>
    rw [List.foldl_cons, List.length_cons, Nat.pow_succ, Nat.mul_assoc]
    refine (ih _).trans_le (Nat.mul_le_mul_left _ ?_)
    have := (bs.getD (off + k) 0).isLt
    omega

theorem readBE_lt (bs : List Byte) (off size : Nat) : readBE bs off size < 256 ^ size := by
  have h := foldl_bytes_lt bs off 0 (List.range size)
  rwa [List.length_range, Nat.zero_add, Nat.mul_one] at h

theorem headerPasses_ranges {cart : Nat} {h : List Byte} (hp : headerPasses cart h = true) :
    readBE h 7 1 ≤ 3 ∧ readBE h 8 4 ≠ 0 := by
  simp only [headerPasses, Bool.and_eq_true, decide_eq_true_eq] at hp
  obtain ⟨⟨⟨_, hformat⟩, hlength⟩, _⟩ := hp
  exact ⟨hformat, hlength⟩

theorem readHeader_snapshot {cart : Nat} {unit : List Byte} {sn : Snapshot} (h : readHeader cart unit = .snapshot sn) :
    headerPasses cart (unit.take 64) = true ∧ sn = makeSnapshot (unit.take 64) := by
  unfold readHeader at h
  split at h
  · exact ⟨by assumption, (FetchOutcome.snapshot.inj h).symm⟩
  · cases h

theorem msToSamples_le (ms : Nat) : msToSamples ms ≤ 480000 := by
  unfold msToSamples
  omega

/-- A number of blocks that just holds a number of samples. -/
theorem ceilDiv_spec (n : Nat) (h : 1 ≤ n) :
    1 ≤ ceilDiv n 1024 ∧ n ≤ 1024 * ceilDiv n 1024 ∧ 1024 * (ceilDiv n 1024 - 1) < n := by
  unfold ceilDiv
  omega

/-- The fade mark, the fade length and the effective length of a header, with the corrections of R19 (R19, R20). -/
def headerFade (length fadeLen : Nat) (mark : Option Nat) : Option Nat × Nat × Nat :=
  match mark.filter fun m => decide (m ≤ length) with
  | none => (none, fadeLen, length)
  | some m =>
    let fl := if m + fadeLen > length then length - m else fadeLen
    if m = 0 ∧ fl = 0 then (none, fl, length) else (some m, fl, m + fl)

theorem makeSnapshot_fade (h : List Byte) :
    ((makeSnapshot h).fadeMark, (makeSnapshot h).fadeLen, (makeSnapshot h).elen)
      = headerFade (makeSnapshot h).length (msToSamples (readBE h 20 2)) (optional32 (readBE h 16 4)) := by
  unfold makeSnapshot headerFade
  dsimp only
  generalize (optional32 (readBE h 16 4)).filter _ = mark
  cases mark with
  | none => rfl
  | some m =>
    dsimp only
    generalize (if m + msToSamples (readBE h 20 2) > min (readBE h 8 4) 134217727 then min (readBE h 8 4) 134217727 - m
      else msToSamples (readBE h 20 2)) = fl
    by_cases hz : m = 0 ∧ fl = 0
    · obtain ⟨rfl, rfl⟩ := hz
      rfl
    · have hkeep : (!(m == 0 && fl == 0)) = true := by
        rw [Bool.not_eq_true', Bool.and_eq_false_iff, beq_eq_false_iff_ne, beq_eq_false_iff_ne]
        exact not_and_or.mp hz
      rw [Option.filter_some, hkeep, if_neg hz]
      rfl

theorem headerFade_spec (length fadeLen : Nat) (mark : Option Nat) (hlength : 1 ≤ length) (hfade : fadeLen ≤ 480000) :
    let r := headerFade length fadeLen mark
    1 ≤ r.2.2 ∧ r.2.2 ≤ length ∧ (∀ m, r.1 = some m → m + r.2.1 = r.2.2) ∧ (r.1 = none → r.2.2 = length) ∧ r.2.1 ≤ 480000 := by
  unfold headerFade
  split
  · exact ⟨hlength, le_rfl, by simp, fun _ => rfl, hfade⟩
  · rename_i m hm
    have hle : m ≤ length := by
      have := (Option.filter_eq_some_iff.mp hm).2
      simpa using this
    dsimp only
    generalize hfl : (if m + fadeLen > length then length - m else fadeLen) = fl
    have hfl' : m + fl ≤ length ∧ fl ≤ 480000 := by
      split at hfl <;> omega
    split
    · exact ⟨hlength, le_rfl, by simp, fun _ => rfl, hfl'.2⟩
    · dsimp only
      refine ⟨by omega, hfl'.1, fun k hk => ?_, by simp, hfl'.2⟩
      rw [← Option.some.inj hk]

theorem makeSnapshot_segue_le (h : List Byte) : (makeSnapshot h).segue ≤ (makeSnapshot h).elen := by
  unfold makeSnapshot
  dsimp only
  split
  · exact Nat.min_le_right _ _
  · exact le_rfl

/-- Settles O25: the snapshot's ranges from the header's checks and corrections. -/
theorem headerSnapshotsAreInRange : Obligations.HeaderSnapshotsAreInRange := by
  intro cart unit sn hread
  obtain ⟨hpass, rfl⟩ := readHeader_snapshot hread
  generalize unit.take 64 = h at hpass
  obtain ⟨hformat, hlen⟩ := headerPasses_ranges hpass
  have hlength : 1 ≤ (makeSnapshot h).length ∧ (makeSnapshot h).length ≤ 134217727 := by
    show 1 ≤ min (readBE h 8 4) 134217727 ∧ min (readBE h 8 4) 134217727 ≤ 134217727
    omega
  have htrim : -240 ≤ (makeSnapshot h).trim ∧ (makeSnapshot h).trim ≤ 120 := by
    show -240 ≤ clampInt (-240) 120 _ ∧ clampInt (-240) 120 _ ≤ 120
    unfold clampInt
    omega
  have hfade := headerFade_spec _ (msToSamples (readBE h 20 2)) (optional32 (readBE h 16 4)) hlength.1 (msToSamples_le _)
  rw [← makeSnapshot_fade h] at hfade
  obtain ⟨helen, hbound, hmark, hnone, hfadeLen⟩ := hfade
  obtain ⟨hblocks, hcover, htight⟩ := ceilDiv_spec (makeSnapshot h).elen helen
  have hmost : ceilDiv (makeSnapshot h).elen 1024 ≤ 131072 := by
    dsimp only at hbound
    omega
  exact ⟨hformat, hlength.1, hlength.2, helen, hbound, makeSnapshot_segue_le h, hmark, hnone, hfadeLen, htrim.1, htrim.2,
    readBE_lt h 24 4, hblocks, hmost, hcover, htight⟩

end Sys2Proof.Machine
end


section
/-! Laws of the rules at a deck (4.4 to 4.9): duck requests, fades, segues, marks, blocks. -/

namespace Sys2Proof.Machine

variable {s t u : State} {d : DeckNo}

/-! ### One deck set -/

theorem State.setDeck_setDeck (s : State) (d : DeckNo) (x y : Deck) : (s.setDeck d x).setDeck d y = s.setDeck d y := by
  unfold State.setDeck
  rw [Vector.set_set]

theorem Deck.sounding_of_playing {x : Deck} (h : x.state = .playing) : x.sounding = true := by rw [Deck.sounding, h]; rfl

/-! ### Duck requests (R99, R103) -/

/-- A withdrawal changes the request, and hands its DUCK. -/
theorem State.withdrawDuck_frame (s : State) (d : DeckNo) : s.withdrawDuck d = (s.setRequest d none).withLine (s.withdrawDuck d) := by
  unfold State.withdrawDuck
  split
  · rename_i h
    have hset : s.mix.requests.set d none = s.mix.requests := by
      rw [← h]
      exact vector_set_self _ _
    unfold State.setRequest
    rw [hset]
    rfl
  · rename_i q _
    rw [(s.setRequest d none).handLive_frame (duckNotice q 0)]
    rfl

theorem State.deck_withdrawDuck (s : State) (d e : DeckNo) : (s.withdrawDuck d).deck e = s.deck e := by
  rw [s.withdrawDuck_frame d]
  rfl

theorem State.request_withdrawDuck (s : State) (d : DeckNo) : (s.withdrawDuck d).mix.requests[d] = none := by
  rw [s.withdrawDuck_frame d]
  exact Vector.getElem_set_self ..

theorem State.records_withdrawDuck (s : State) (d : DeckNo) : (s.withdrawDuck d).records = s.records := by
  rw [s.withdrawDuck_frame d]
  rfl

theorem State.work_withdrawDuck (s : State) (d : DeckNo) : (s.withdrawDuck d).work = s.work := by
  rw [s.withdrawDuck_frame d]
  rfl

/-! ### Fades (R74 to R76) -/

/-- A deck in a fade-out. -/
def Deck.fadeTo (x : Deck) (pos len : Nat) (law : Law) (c : Cause) : Deck :=
  { x with state := .fading, fadeIn := none, fadeOut := some ⟨pos, len, law, c⟩ }

theorem Deck.fadeTo_of_noFadeIn {x : Deck} (h : x.fadeIn = none) (pos len : Nat) (law : Law) (c : Cause) :
    x.fadeTo pos len law c = { x with state := .fading, fadeOut := some ⟨pos, len, law, c⟩ } := by
  unfold Deck.fadeTo
  rw [← h]

theorem State.enterFade_fades {len pos : Nat} (h : pos < len) (law : Law) (c : Cause) :
    s.enterFade d len law c pos = (s.setDeck d ((s.deck d).fadeTo pos len law c)).withdrawDuck d := if_neg (Nat.not_le.mpr h)

theorem State.enterFade_ends {len pos : Nat} (h : len ≤ pos) (law : Law) (c : Cause) :
    s.enterFade d len law c pos = s.endItem d c := if_pos h

theorem Deck.fadeEntry_playing {x : Deck} (h : x.state = .playing) (hin : x.fadeIn = none) (len entry : Nat) :
    x.fadeEntry len entry = some entry := by
  simp only [Deck.fadeEntry, h, hin]

theorem Deck.fadeEntry_fadeIn {x : Deck} (h : x.state = .playing) {f : FadeIn} (hin : x.fadeIn = some f) (len entry : Nat) :
    x.fadeEntry len entry = some (max (roundDiv ((f.len - f.pos) * len) f.len) entry) := by
  simp only [Deck.fadeEntry, h, hin]

theorem Deck.fadeEntry_fading {x : Deck} (h : x.state = .fading) {f : FadeOut} (hout : x.fadeOut = some f) (len entry : Nat) :
    x.fadeEntry len entry = let q := max (roundDiv (f.pos * len) f.len) entry
      if len = 0 ∨ (len : Int) - q < (f.len : Int) - f.pos then some q else none := by
  simp only [Deck.fadeEntry, h, hout]

theorem State.requestFade_some {len entry q : Nat} (h : (s.deck d).fadeEntry len entry = some q) (law : Law) (c : Cause) :
    s.requestFade d len law c entry = s.enterFade d len law c q := by
  simp only [State.requestFade, h]

theorem State.requestFade_none {len entry : Nat} (h : (s.deck d).fadeEntry len entry = none) (law : Law) (c : Cause) :
    s.requestFade d len law c entry = s := by
  simp only [State.requestFade, h]

/-- A request on a PLAYING deck with no fade-in begins at its own entry position. -/
theorem State.requestFade_playing (h : (s.deck d).state = .playing) (hin : (s.deck d).fadeIn = none) {len entry : Nat}
    (hlt : entry < len) (law : Law) (c : Cause) :
    s.requestFade d len law c entry = (s.setDeck d ((s.deck d).fadeTo entry len law c)).withdrawDuck d := by
  rw [State.requestFade_some (Deck.fadeEntry_playing h hin len entry), State.enterFade_fades hlt]

theorem Deck.endsAtOnce_playing {x : Deck} (h : x.state = .playing) (hin : x.fadeIn = none) (len entry : Nat) :
    x.endsAtOnce len entry = decide (len ≤ entry) := by
  rw [Deck.endsAtOnce, Deck.fadeEntry_playing h hin]
  rfl

theorem State.clearFade_keeps (h : (s.deck d).endsSoon = true) (law : Law) : s.clearFade d law = s := if_pos h

theorem State.clearFade_requests (h : (s.deck d).endsSoon = false) (law : Law) :
    s.clearFade d law = s.requestFade d 480 law ⟨.faded, .cleared⟩ 0 := if_neg (by rw [h]; decide)

/-- Settles O57: the cases of a request's entry, and a CLEAR's request. -/
theorem fadeRequestsCompareByTheirEnds : Obligations.FadeRequestsCompareByTheirEnds := by
  intro s d len entry law c
  refine ⟨fun h f hin => ?_, fun h f hout => ?_, fun h => ?_, fun f hout hlen => ?_⟩
  · exact State.requestFade_some (Deck.fadeEntry_fadeIn h hin len entry) law c
  · have hentry := Deck.fadeEntry_fading h hout len entry
    refine ⟨fun hzero => ?_, fun hpos hless hlt => ?_, fun hpos hmore => ?_⟩
    · dsimp only at hentry
      rw [if_pos (.inl hzero)] at hentry
      rw [State.requestFade_some hentry, State.enterFade_ends (by omega)]
    · exact (State.requestFade_some (hentry.trans (if_pos (.inr hless))) law c).trans (State.enterFade_fades hlt law c)
    · exact State.requestFade_none (hentry.trans (if_neg (not_or.mpr ⟨hpos.ne', Int.not_lt.mpr hmore⟩))) law c
  · refine State.clearFade_requests ?_ law
    unfold Deck.endsSoon
    cases hout : (s.deck d).fadeOut with
    | none => rfl
    | some f => exact decide_eq_false (Nat.not_le.mpr (h f hout))
  · refine State.clearFade_keeps ?_ law
    rw [Deck.endsSoon, hout]
    exact decide_eq_true hlen

/-! ### Marks due -/

theorem Deck.segueDue_iff {x : Deck} {it : Item} (hs : x.sounding = true) (hit : x.item = some it) :
    x.segueDue = true ↔ x.segued = false ∧ it.segue ≤ x.p := by
  simp [Deck.segueDue, hs, hit]

theorem Deck.segueDue_segued {x : Deck} (h : x.segued = true) : x.segueDue = false := by
  simp [Deck.segueDue, h]

theorem Deck.truncDue_iff {x : Deck} {f : TruncFade} (hs : x.sounding = true) (h : x.trunc = some f) :
    x.truncDue = true ↔ f.begin_ ≤ x.p := by
  simp [Deck.truncDue, hs, h]

theorem Deck.fadeMarkDue_iff {x : Deck} {it : Item} {m : Nat} (hs : x.sounding = true) (hit : x.item = some it)
    (hm : it.fadeMark = some m) : x.fadeMarkDue = true ↔ x.fadeMarkDone = false ∧ m ≤ x.p ∧ m < x.endPos := by
  simp [Deck.fadeMarkDue, hs, hit, hm]

theorem State.fadeMarksFirst_eq_self (hmark : (s.deck d).fadeMarkDue = false) (htrunc : (s.deck d).truncDue = false) :
    s.fadeMarksFirst d = s := by
  simp only [State.fadeMarksFirst, hmark, htrunc, Bool.false_eq_true, if_false]

/-! ### The segue (R72) -/

/-- The reaction that tells a record's follower of a segue. -/
def segueTasks (follower : Option Nat) : List Task := match follower with | none => [] | some f => [.followSegue f]

theorem State.takeSegue_reached {tag : Nat} {it : Item} (hs : (s.deck d).sounding = true) (hb : (s.deck d).bound = some tag)
    (hit : (s.deck d).item = some it) (h : (s.deck d).segued = false) (time : Nat) : s.takeSegue d time
      = ((s.setDeck d { s.deck d with segued := true }).handLive
          (.segue ⟨wordField tag, byteField it.group.val, timeField (some time)⟩)).emit (segueTasks (s.follower tag it.group)) := by
  have hfollower : ((s.modDeck d fun x => { x with segued := true }).handLive
      (.segue ⟨wordField tag, byteField it.group.val, timeField (some time)⟩)).follower tag it.group = s.follower tag it.group := by
    rw [State.handLive_frame]
    rfl
  conv_lhs => simp only [State.takeSegue, hs, hb, hit, h, Bool.not_true, Bool.or_self, Bool.false_eq_true, if_false, hfollower]
  rfl

theorem State.takeSegue_again (h : (s.deck d).segued = true) (time : Nat) : s.takeSegue d time = s := by
  unfold State.takeSegue
  simp only [h, Bool.true_or, if_true]
  split <;> rfl

theorem State.segueMarkAt_due {it : Item} {st : Nat} (h : (s.deck d).segueDue = true) (hit : (s.deck d).item = some it)
    (hst : (s.deck d).actualStart = some st) : s.segueMarkAt d = s.takeSegue d (addAir st it.segue) := by
  simp only [State.segueMarkAt, h, if_true, hit, hst]

/-- The segue leaves all of a deck but the segued flag. -/
theorem State.deck_takeSegue_self (s : State) (d : DeckNo) (time : Nat) :
    ∃ b, (s.takeSegue d time).deck d = { s.deck d with segued := b } := by
  unfold State.takeSegue
  dsimp only
  split
  · split
    · exact ⟨_, rfl⟩
    · refine ⟨true, ?_⟩
      rw [State.handLive_frame]
      exact s.deck_setDeck_self d _
  · exact ⟨_, rfl⟩

theorem State.deck_segueMarkAt_self (s : State) (d : DeckNo) : ∃ b, (s.segueMarkAt d).deck d = { s.deck d with segued := b } := by
  unfold State.segueMarkAt
  dsimp only
  split
  · split
    · exact s.deck_takeSegue_self d _
    · exact ⟨_, rfl⟩
  · exact ⟨_, rfl⟩

/-- Settles O55: the mark due, and the flag set. -/
theorem segueMarkIsReachedOnce : Obligations.SegueMarkIsReachedOnce := by
  intro s d tag it st hrun hs hb hit hst hp
  have hdue (h : (s.deck d).segued = false) : (s.deck d).segueDue = true := (Deck.segueDue_iff hs hit).mpr ⟨h, hp⟩
  refine ⟨fun h hmark htrunc => ?_, fun h => ?_, fun h hrest => ?_⟩
  · rw [exec_segueMark hrun, if_pos (hdue h), State.fadeMarksFirst_eq_self hmark htrunc, State.segueMarkAt_due (hdue h) hit hst,
      State.takeSegue_reached hs hb hit h]
    rfl
  · rw [exec_segueMark hrun, if_pos (hdue h)]
  · rw [exec_segueMark hrun, Deck.segueDue_segued h, if_neg (by decide), State.finish_atRest hrest]

/-! ### Fades that marks begin (R77, R78) -/

theorem State.fadeAtMark_begins (h : (s.deck d).state = .playing) (hin : (s.deck d).fadeIn = none) {len entry : Nat} (hlt : entry < len)
    (law : Law) (c : Cause) :
    s.fadeAtMark d len law c entry = (s.setDeck d ((s.deck d).fadeTo entry len law c)).withdrawDuck d := by
  unfold State.fadeAtMark
  rw [Deck.endsAtOnce_playing h hin, decide_eq_false (Nat.not_le.mpr hlt), if_neg (by decide), State.requestFade_playing h hin hlt]

theorem State.fadeAtMark_ends (h : (s.deck d).state = .playing) (hin : (s.deck d).fadeIn = none) {len entry : Nat} (hle : len ≤ entry)
    (law : Law) (c : Cause) : s.fadeAtMark d len law c entry = (s.segueMarkAt d).endItem d c := by
  obtain ⟨b, hdeck⟩ := s.deck_segueMarkAt_self d
  have hentry : ((s.segueMarkAt d).deck d).fadeEntry len entry = some entry := by
    rw [hdeck]
    exact Deck.fadeEntry_playing (x := { s.deck d with segued := b }) h hin len entry
  unfold State.fadeAtMark
  rw [Deck.endsAtOnce_playing h hin, decide_eq_true hle, if_pos rfl, State.requestFade_some hentry, State.enterFade_ends hle]

theorem State.fadeMarkAt_due {it : Item} {m : Nat} (hit : (s.deck d).item = some it) (hm : it.fadeMark = some m)
    (h : (s.deck d).fadeMarkDue = true) : s.fadeMarkAt d
      = (s.setDeck d { s.deck d with fadeMarkDone := true }).fadeAtMark d it.fadeLen it.law ⟨.complete, .none⟩ ((s.deck d).p - m) := by
  conv_lhs => simp only [State.fadeMarkAt, h, if_true, hit, hm]
  rfl

theorem State.truncBeginAt_due {it : Item} {f : TruncFade} (hit : (s.deck d).item = some it) (hf : (s.deck d).trunc = some f)
    (h : (s.deck d).truncDue = true) : s.truncBeginAt d
      = (s.setDeck d { s.deck d with trunc := none }).fadeAtMark d f.len it.law ⟨.truncated, .none⟩ ((s.deck d).p - f.begin_) := by
  conv_lhs => simp only [State.truncBeginAt, h, if_true, hit, hf]
  rfl

/-- A mark's fade on a PLAYING deck, of which the mark has first changed a field. -/
theorem State.fadeAtMark_setDeck {x : Deck} (h : x.state = .playing) (hin : x.fadeIn = none) {len entry : Nat} (hlt : entry < len)
    (law : Law) (c : Cause) :
    (s.setDeck d x).fadeAtMark d len law c entry = (s.setDeck d (x.fadeTo entry len law c)).withdrawDuck d := by
  have hx := s.deck_setDeck_self d x
  rw [State.fadeAtMark_begins (by rwa [hx]) (by rwa [hx]) hlt, hx, State.setDeck_setDeck]

/-- Settles O56: the fade mark, the truncation fade, and the one with no length left. -/
theorem fadeMarksBeginFades : Obligations.FadeMarksBeginFades := by
  intro s d it hrun hplay hin hit
  have hs := Deck.sounding_of_playing hplay
  refine ⟨fun m hm hp hend hdone hlt => ?_, fun f hf hp hlt => ?_, fun f hf hp hle => ?_⟩
  · have hdue := (Deck.fadeMarkDue_iff hs hit hm).mpr ⟨hdone, hp, hend⟩
    rw [exec_fadeMark hrun, State.fadeMarkAt_due hit hm hdue,
      State.fadeAtMark_setDeck (x := { s.deck d with fadeMarkDone := true }) hplay hin hlt,
      Deck.fadeTo_of_noFadeIn (x := { s.deck d with fadeMarkDone := true }) hin]
  · have hdue := (Deck.truncDue_iff hs hf).mpr hp
    rw [exec_truncationFadeBegin hrun, State.truncBeginAt_due hit hf hdue,
      State.fadeAtMark_setDeck (x := { s.deck d with trunc := none }) hplay hin hlt,
      Deck.fadeTo_of_noFadeIn (x := { s.deck d with trunc := none }) hin]
  · have hdue := (Deck.truncDue_iff hs hf).mpr hp
    have hx := s.deck_setDeck_self d { s.deck d with trunc := none }
    rw [exec_truncationFadeBegin hrun, State.truncBeginAt_due hit hf hdue, State.fadeAtMark_ends (by rwa [hx]) (by rwa [hx]) hle]

/-! ### Blocks entered (R66, R69) -/

theorem mapRing_get (f : Slot → Slot) (r : Vector Slot 16) (i : Fin 16) : (mapRing f r)[i] = f r[i] := by
  simp [mapRing]

theorem freeBelow_get (b : Nat) (r : Vector Slot 16) (i : Fin 16) : (freeBelow b r)[i] = match r[i] with
    | .filled k a => if k < b then .free else .filled k a
    | x => x := by
  rw [freeBelow, mapRing_get]
  cases r[i] <;> rfl

theorem Deck.holds_iff (x : Deck) (b : Nat) : x.holds b = true ↔ ∃ i : Fin 16, (x.ring[i]).block? = some b := by
  simp only [Deck.holds, List.any_eq_true, beq_iff_eq, Vector.mem_toList_iff, Vector.mem_iff_getElem]
  constructor
  · rintro ⟨_, ⟨i, hi, rfl⟩, h⟩
    exact ⟨⟨i, hi⟩, h⟩
  · rintro ⟨i, h⟩
    exact ⟨_, ⟨i, i.isLt, rfl⟩, h⟩

/-- Settles O58: the fade-in's end, and the slots and the fetch pointer of a block entered. -/
theorem fadeInEndsAndBlocksAreEntered : Obligations.FadeInEndsAndBlocksAreEntered := by
  refine fun s d hrun => ⟨fun f hf hlen => ?_, fun hs hp hblock => ⟨(s.deck d).enterBlock, ?_, fun i => freeBelow_get _ _ i, ?_, rfl⟩⟩
  · have hdue : (s.deck d).fadeInDue = true := by
      rw [Deck.fadeInDue, hf]
      exact decide_eq_true hlen
    rw [exec_fadeInEnd hrun, State.fadeInEndAt, if_pos hdue]
    rfl
  · have hdue : (s.deck d).blockDue = true := by simp [Deck.blockDue, hs, hp, hblock]
    rw [exec_blockEntered hrun, State.blockEnteredAt, if_pos hdue]
    rfl
  · by_cases h : ∃ i : Fin 16, ((s.deck d).ring[i]).block? = some ((s.deck d).p / 1024)
    · rw [if_pos h]
      exact if_pos ((Deck.holds_iff _ _).mpr h)
    · rw [if_neg h]
      exact if_neg (mt (Deck.holds_iff _ _).mp h)

/-! ### The skip-silent check (R82) -/

theorem State.skipDue_iff (s : State) (d : DeckNo) : s.skipDue d = true ↔ s.isLive = true ∧ s.cfg.skipSilent ≠ 0
    ∧ s.cfg.skipSilent * 48000 ≤ s.monitor.timers[d] ∧ (s.deck d).state = .playing := by
  simp only [State.skipDue, Bool.and_eq_true, decide_eq_true_eq, beq_iff_eq, and_assoc]

theorem State.skipSilentAt_due {it : Item} (h : s.skipDue d = true) (hit : (s.deck d).item = some it) : s.skipSilentAt d
    = ((s.takeSegue d s.now).requestFade d 480 it.law ⟨.skippedSilent, .none⟩ 0).setTimer d 0 := by
  simp only [State.skipSilentAt, h, if_true, hit]

/-- After the segue is taken as reached, the deck has it flagged, and the follower is told unless it was before. -/
theorem State.takeSegue_spec {tag : Nat} {it : Item} (hs : (s.deck d).sounding = true) (hb : (s.deck d).bound = some tag)
    (hit : (s.deck d).item = some it) (time : Nat) : (s.takeSegue d time).deck d = { s.deck d with segued := true }
      ∧ (∀ e : DeckNo, e ≠ d → (s.takeSegue d time).deck e = s.deck e)
      ∧ (s.takeSegue d time).records = s.records
      ∧ (s.takeSegue d time).work = s.work ++ if (s.deck d).segued then [] else segueTasks (s.follower tag it.group) := by
  cases h : (s.deck d).segued with
  | true =>
    rw [State.takeSegue_again h, if_pos rfl, List.append_nil, ← h]
    exact ⟨rfl, fun _ _ => rfl, rfl, rfl⟩
  | false =>
    rw [State.takeSegue_reached hs hb hit h, State.handLive_frame]
    exact ⟨s.deck_setDeck_self d _, fun e he => s.deck_setDeck_ne d e _ he.symm, rfl, rfl⟩

/-- Settles O60: no check that is not due acts; a due one takes the segue and begins its fade. -/
theorem silentItemsAreSkipped : Obligations.SilentItemsAreSkipped := by
  refine ⟨fun s d hrun hrest hnot => ?_, fun s d tag it hrun hlive hcfg htimer hplay hin hb hit => ?_⟩
  · have hdue : s.skipDue d = false := by
      rw [Bool.eq_false_iff, ne_eq, State.skipDue_iff]
      rintro ⟨hlive, hcfg, htimer, hplay⟩
      obtain h | h | h | h := hnot
      · exact absurd (h.symm.trans hlive) (by decide)
      · exact hcfg h
      · exact absurd htimer (Nat.not_le.mpr h)
      · exact h hplay
    rw [exec_skipSilent hrun, State.skipSilentAt, hdue, if_neg (by decide), State.finish_atRest hrest]
  · have hdue := (s.skipDue_iff d).mpr ⟨hlive, hcfg, htimer, hplay⟩
    obtain ⟨hdeck, -, hrecords, hwork⟩ := State.takeSegue_spec (Deck.sounding_of_playing hplay) hb hit s.now
    have hafter := s.after_skipSilentAt d
    have hx := State.skipSilentAt_due hdue hit
    rw [State.requestFade_playing (by rw [hdeck]; exact hplay) (by rw [hdeck]; exact hin) (by decide), hdeck] at hx
    refine ⟨_, exec_skipSilent hrun d, ?_, ?_, ?_, ?_, fun hseg => ?_, hafter⟩ <;> rw [hx]
    · exact (State.deck_withdrawDuck _ d d).trans ((State.deck_setDeck_self _ d _).trans
        (Deck.fadeTo_of_noFadeIn (x := { s.deck d with segued := true }) hin _ _ _ _))
    · exact Vector.getElem_set_self ..
    · exact State.request_withdrawDuck _ d
    · exact (State.records_withdrawDuck _ d).trans hrecords
    · refine (State.work_withdrawDuck _ d).trans (hwork.trans ?_)
      rw [hseg]
      rfl

end Sys2Proof.Machine
end


section
/-! Laws of departures (R57, R63, R80, R190): the as-run record, the list, the deck given up; and of blocks handed to a deck. -/

namespace Sys2Proof.Machine

variable {s t u : State} {d : DeckNo}

/-! ### The as-run log under handing (R191, R192) -/

/-- Only the offer state of the log may differ. -/
def AsRunLog.SameRecords (l k : AsRunLog) : Prop := k = { l with offer := k.offer }

theorem AsRunLog.SameRecords.trans {l k m : AsRunLog} (h : l.SameRecords k) (g : k.SameRecords m) : l.SameRecords m := by
  unfold AsRunLog.SameRecords at *
  rw [g, h]

theorem State.log_judgeOffer (s : State) : s.log.SameRecords s.judgeOffer.log := by
  unfold State.judgeOffer
  split
  · split <;> rfl
  · rfl

theorem State.log_hand (s : State) (n : Notice) : s.log.SameRecords (s.hand n).log := by
  rw [State.hand_cases]
  split
  · exact AsRunLog.SameRecords.trans (k := { s.log with offer := none }) rfl
      (State.log_judgeOffer { s with bus := (s.bus.handed? n).1, log := { s.log with offer := none } })
  · rfl

theorem State.log_handLive (s : State) (n : Notice) : s.log.SameRecords (s.handLive n).log := by
  unfold State.handLive
  split
  · exact s.log_hand n
  · rfl

theorem State.log_withdrawDuck (s : State) (d : DeckNo) : s.log.SameRecords (s.withdrawDuck d).log := by
  unfold State.withdrawDuck
  split
  · rfl
  · exact State.log_handLive _ _

theorem AsRunLog.SameRecords.records {l k : AsRunLog} (h : l.SameRecords k) : k.records = l.records :=
  (congrArg AsRunLog.records h).trans rfl

theorem AsRunLog.SameRecords.nextSeq {l k : AsRunLog} (h : l.SameRecords k) : k.nextSeq = l.nextSeq :=
  (congrArg AsRunLog.nextSeq h).trans rfl

theorem AsRunLog.SameRecords.lost {l k : AsRunLog} (h : l.SameRecords k) : k.lost = l.lost :=
  (congrArg AsRunLog.lost h).trans rfl

theorem State.storeAsRun_frame (s : State) (a : AsRun) : s.storeAsRun a = s.withLine (s.storeAsRun a) := by
  unfold State.storeAsRun
  split
  · rw [State.judgeOffer_frame]
    rfl
  · rw [State.judgeOffer_frame]
    rfl

/-- With room the log takes the record last, with the next sequence. -/
theorem State.storeAsRun_room (h : s.log.records.length < 32) (a : AsRun) : ({ s.log with
      records := s.log.records ++ [{ a with sequence := s.log.nextSeq }], nextSeq := (s.log.nextSeq + 1) % 256 } : AsRunLog).SameRecords
    (s.storeAsRun a).log := by
  unfold State.storeAsRun
  rw [if_pos h]
  exact State.log_judgeOffer _

/-- A full log counts the record lost. -/
theorem State.storeAsRun_full (h : 32 ≤ s.log.records.length) (a : AsRun) :
    ({ s.log with lost := min 255 (s.log.lost + 1) } : AsRunLog).SameRecords (s.storeAsRun a).log := by
  unfold State.storeAsRun
  rw [if_neg (Nat.not_lt.mpr h)]
  exact State.log_judgeOffer _

/-! ### Fetches withdrawn, fills told -/

/-- A state with another's store reader. -/
def State.withReader (u s : State) : State := { u with reader := s.reader }

theorem State.makeRoom_frame (s : State) : s.makeRoom = s.withReader s.makeRoom := by
  unfold State.makeRoom
  split
  · rfl
  · split <;> rfl

theorem State.withdrawFetch_frame (s : State) (o : Owner) : s.withdrawFetch o = s.withReader (s.withdrawFetch o) := by
  have hfirst : ∃ r, (if s.reader.fetch.any (fun f => f.owner == o) then
      s.modReader fun r => { r.abandonFetchRead with fetch := none } else s) = { s with reader := r } := by
    split
    · exact ⟨_, rfl⟩
    · exact ⟨_, rfl⟩
  obtain ⟨r, hr⟩ := hfirst
  unfold State.withdrawFetch
  dsimp only
  rw [hr]
  split
  · rw [State.makeRoom_frame]
    rfl
  · rfl

/-- A state with other air-time expiries and break entries. -/
def State.withBreaks (u s : State) : State :=
  { u with airExpiries := s.airExpiries, breaks := { u.breaks with entries := s.breaks.entries } }

theorem State.fillLeft_frame (s : State) (r : CueRecord) (byFit : Bool) : s.fillLeft r byFit = s.withBreaks (s.fillLeft r byFit) := by
  unfold State.fillLeft
  split
  · rfl
  · split
    · split <;> rfl
    · rfl

/-! ### A record gone from the list (R57, R58) -/

/-- The state in which a record has left the list, before its deck is given up. -/
def State.recordGone (s : State) (r : CueRecord) (tag : Nat) (c : Cause) (byFit : Bool) : State :=
  (((({ s.storeAsRun (s.asRunOf r c) with records := s.records.filter fun x => x.tag != tag } : State).forget
    tag).cancelRecordExpiries tag).withdrawFetch (.record tag)).fillLeft r byFit

theorem State.removeRecord_eq {tag : Nat} {r : CueRecord} (h : s.find tag = some r) (c : Cause) (byFit : Bool) :
    s.removeRecord tag c byFit = match r.deck with
      | none => s.recordGone r tag c byFit
      | some d => (s.recordGone r tag c byFit).freeDeck d r.sounding := by
  unfold State.removeRecord State.recordGone
  rw [h]
  have hrecords : (s.storeAsRun (s.asRunOf r c)).records = s.records :=
    (congrArg State.records (s.storeAsRun_frame _)).trans rfl
  dsimp only
  rw [hrecords] <;> rfl

/-- A record and the reactions that name it taken out. -/
def State.without (s : State) (tag : Nat) : State :=
  { s with
    records := s.records.filter fun x => x.tag != tag
    work := s.work.filter fun k => k.record? != some tag }

/-- A departure changes log, bus, list, reactions, expiries, reader and break entries, before the deck is given up. -/
theorem State.recordGone_frame (s : State) (r : CueRecord) (tag : Nat) (c : Cause) (byFit : Bool) : ∃ w z : State,
    s.recordGone r tag c byFit = (((s.withLine (s.storeAsRun (s.asRunOf r c))).without tag).withReader w).withBreaks z := by
  have hlog := s.storeAsRun_frame (s.asRunOf r c)
  unfold State.recordGone
  generalize s.storeAsRun (s.asRunOf r c) = u at hlog ⊢
  rw [hlog]
  generalize hv : (({ s.withLine u with records := s.records.filter fun x => x.tag != tag } : State).forget
    tag).cancelRecordExpiries tag = v
  refine ⟨v.withdrawFetch (.record tag), (v.withdrawFetch (.record tag)).fillLeft r byFit, ?_⟩
  refine (State.fillLeft_frame _ r byFit).trans ?_
  generalize hw : v.withdrawFetch (.record tag) = w
  have hreader := v.withdrawFetch_frame (.record tag)
  rw [hw, ← hv] at hreader
  generalize w.fillLeft r byFit = z
  exact (congrArg (fun x : State => x.withBreaks z) hreader).trans rfl

theorem State.find_tag {tag : Nat} {r : CueRecord} (h : s.find tag = some r) : r.tag = tag := by
  simpa using List.find?_some h

theorem State.find_mem {tag : Nat} {r : CueRecord} (h : s.find tag = some r) : r ∈ s.records := List.mem_of_find?_eq_some h

/-- The deck of a departed record (R63, R80). -/
def Deck.freed (x : Deck) (ended : Bool) : Deck := if ended then { x.toIdle with state := x.state } else x.toIdle

theorem State.freeDeck_frame (s : State) (d : DeckNo) (ended : Bool) : ∃ w : State,
    s.freeDeck d ended = ((s.withReader w).setDeck d ((s.deck d).freed ended)).setTimer d 0 := by
  refine ⟨s.abandonDeckRead d, ?_⟩
  cases ended <;> rfl

theorem State.depart_eq {tag : Nat} {r : CueRecord} (h : s.find tag = some r) (c : Cause) : s.depart tag c
    = (s.removeRecord tag c false).emit (leftTasks r ++ followTasks r.sounding (s.follower tag r.group) ++ [.bind] ++ idleTasks r) := by
  simp only [State.depart, h]

theorem State.endItem_eq {tag : Nat} {it : Item} {r : CueRecord} (hb : (s.deck d).bound = some tag) (hit : (s.deck d).item = some it)
    (h : s.find tag = some r) (c : Cause) : s.endItem d c = ((s.withdrawDuck d).handLive (.finish ⟨wordField tag,
      byteField it.group.val, byteField (r.finalCause c).outcome.code, timeField (some s.now)⟩)).depart tag c := by
  have hnow : (s.withdrawDuck d).now = s.now := by
    rw [s.withdrawDuck_frame d]
    rfl
  simp only [State.endItem, hb, hit, h, hnow]

theorem State.itemEndAt_due {it : Item} (h : (s.deck d).endDue = true) (hit : (s.deck d).item = some it) :
    s.itemEndAt d = s.endItem d ((s.deck d).endCause it) := by
  simp only [State.itemEndAt, h, if_true, hit]

/-- The as-run record of an item that ends on its deck (R190). -/
theorem State.asRunOf_sounding {r : CueRecord} (h : r.sounding = true) (hd : r.deck = some d) (c : Cause) : s.asRunOf r c =
    { tag := r.tag, cart := r.cart, group := r.group.val, cls := r.snapshot.map (·.cls), outcome := (r.finalCause c).outcome
      reason := (r.finalCause c).reason, breakId := r.breakId, start := r.actualStart, finish := some s.now
      aired := (s.deck d).aired, substituted := (s.deck d).substituted, flags := r.flags } := by
  simp only [State.asRunOf, h, hd, if_true]
  rfl

/-- The state that an item's end on a deck leaves: the record without, its deck given up, the timer clear, the tasks told. -/
def State.itemGone (u w z : State) (tag : Nat) (d : DeckNo) (x : Deck) (ts : List Task) : State :=
  { u with
    records := u.records.filter fun x => x.tag != tag
    work := (u.work.filter fun k => k.record? != some tag) ++ ts
    reader := w.reader, airExpiries := z.airExpiries, breaks := { u.breaks with entries := z.breaks.entries }
    decks := u.decks.set d x, monitor := { u.monitor with timers := u.monitor.timers.set d 0 } }

theorem State.itemGone_eq (u w z : State) (tag : Nat) (d : DeckNo) (x : Deck) (ts : List Task) :
    (((((u.without tag).withReader w).withBreaks z).setDeck d x).setTimer d 0).emit ts = u.itemGone w z tag d x ts := by
  simp only [State.itemGone, State.emit, State.setTimer, State.setDeck, State.withBreaks, State.withReader, State.without]

theorem State.mem_tags_itemGone (u w z : State) (tag : Nat) (d : DeckNo) (x : Deck) (ts : List Task) :
    tag ∉ (u.itemGone w z tag d x ts).tags := by
  simp [State.tags, State.itemGone]

theorem State.deck_itemGone_self (u w z : State) (tag : Nat) (d : DeckNo) (x : Deck) (ts : List Task) :
    (u.itemGone w z tag d x ts).deck d = x := Vector.getElem_set_self ..

theorem State.deck_itemGone_ne (u w z : State) (tag : Nat) {d e : DeckNo} (x : Deck) (ts : List Task) (h : e ≠ d) :
    (u.itemGone w z tag d x ts).deck e = u.deck e:= by
  have h' : d.val ≠ e.val := fun c => h (Fin.ext c.symm)
  simp [State.deck, State.itemGone, h']

theorem State.timers_itemGone (u w z : State) (tag : Nat) (d : DeckNo) (x : Deck) (ts : List Task) :
    (u.itemGone w z tag d x ts).monitor.timers[d] = 0 := Vector.getElem_set_self ..

theorem State.parts_itemGone (u w z : State) (tag : Nat) (d : DeckNo) (x : Deck) (ts : List Task) :
    (u.itemGone w z tag d x ts).work = (u.work.filter fun k => k.record? != some tag) ++ ts
      ∧ (u.itemGone w z tag d x ts).mix = u.mix ∧ (u.itemGone w z tag d x ts).log = u.log := by
  unfold State.itemGone
  exact ⟨rfl, rfl, rfl⟩

/-- An item that ends on the deck of its sounding record: the record gone, its reactions, the deck given up. -/
theorem State.depart_sounding {tag : Nat} {r : CueRecord} (h : s.find tag = some r) (hs : r.sounding = true) (hd : r.deck = some d)
    (c : Cause) : ∃ w z : State, s.depart tag c = (s.withLine (s.storeAsRun (s.asRunOf r c))).itemGone w z tag d
      ((s.deck d).freed true) (leftTasks r ++ followTasks true (s.follower tag r.group) ++ [.bind, .deckIdle d, .bind]) := by
  obtain ⟨w, z, hgone⟩ := s.recordGone_frame r tag c false
  obtain ⟨w', hfree⟩ := (s.recordGone r tag c false).freeDeck_frame d true
  refine ⟨w', z, ?_⟩
  rw [State.depart_eq h, State.removeRecord_eq h, hs, hd]
  dsimp only
  rw [hfree, hgone, idleTasks, hs, hd, List.append_assoc, ← State.itemGone_eq]
  rfl

/-- Settles O59: the marks due first, then the item's end in normal form. -/
theorem itemEndReleasesTheDeck : Obligations.ItemEndReleasesTheDeck := by
  refine ⟨fun s d hrun hdue => ?_, fun s d tag it r hrun hdue hmark htrunc hsegue hb hit hfind hd hs hroom => ?_⟩
  · rw [exec_itemEnd hrun, if_pos hdue]
  have hexec : exec (.itemEnd d) s = .next (s.itemEndAt d).finish := by
    rw [exec_itemEnd hrun, if_pos hdue, State.fadeMarksFirst_eq_self hmark htrunc, State.segueFirst, hsegue, if_neg (by decide)]
  have hafter := s.after_itemEndAt d
  have hlog : s.log.SameRecords _ := (s.log_withdrawDuck d).trans ((s.withdrawDuck d).log_handLive (.finish ⟨wordField tag,
      byteField it.group.val, byteField (r.finalCause ((s.deck d).endCause it)).outcome.code, timeField (some s.now)⟩))
  have hframe := (s.withdrawDuck d).handLive_frame (.finish ⟨wordField tag,
      byteField it.group.val, byteField (r.finalCause ((s.deck d).endCause it)).outcome.code, timeField (some s.now)⟩)
  refine ⟨_, hexec, ?_⟩
  rw [State.itemEndAt_due hdue hit, State.endItem_eq hb hit hfind] at hafter ⊢
  generalize (s.withdrawDuck d).handLive _ = v at hlog hframe hafter ⊢
  rw [s.withdrawDuck_frame d] at hframe
  replace hframe : v = (s.setRequest d none).withLine v := hframe
  have hfind' : v.find tag = some r := by rw [hframe]; exact hfind
  have hdeck (e : DeckNo) : v.deck e = s.deck e := by rw [hframe]; rfl
  have hwork : v.work = s.work := by rw [hframe]; rfl
  have hfollower : v.follower tag r.group = s.follower tag r.group := by rw [hframe]; rfl
  have hnow : v.now = s.now := by rw [hframe]; rfl
  have hrequest : v.mix.requests[d] = none := by rw [hframe]; exact Vector.getElem_set_self ..
  have hasrun : v.asRunOf r ((s.deck d).endCause it) = s.asRunOf r ((s.deck d).endCause it) := by
    rw [State.asRunOf_sounding hs hd, State.asRunOf_sounding hs hd, hdeck, hnow]
  obtain ⟨w, z, hx⟩ := State.depart_sounding hfind' hs hd ((s.deck d).endCause it)
  have hstored := (State.storeAsRun_room (s := v) (by rw [hlog.records]; exact hroom) (s.asRunOf r ((s.deck d).endCause it))).records
  rw [hasrun, hfollower, hdeck] at hx
  rw [hlog.nextSeq, hlog.records] at hstored
  have hfields := s.asRunOf_sounding hs hd ((s.deck d).endCause it)
  generalize s.asRunOf r ((s.deck d).endCause it) = a at hx hstored hfields
  generalize v.storeAsRun a = k at hx hstored
  obtain ⟨hw', hmix, hklog⟩ := (v.withLine k).parts_itemGone w z tag d ((s.deck d).freed true)
    (leftTasks r ++ followTasks true (s.follower tag r.group) ++ [.bind, .deckIdle d, .bind])
  rw [hx] at hafter ⊢
  refine ⟨State.mem_tags_itemGone _ _ _ _ _ _ _, ?_, ?_, fun y hy => if_pos (by rw [hy]; rfl), fun e he => ?_, ?_,
    State.timers_itemGone _ _ _ _ _ _ _, ⟨{ a with sequence := s.log.nextSeq }, ?_, rfl, ?_⟩, hafter⟩
  · rw [State.deck_itemGone_self]
    rfl
  · rw [hw', ← hwork]
    simp only [List.append_assoc]
    rfl
  · rw [State.deck_itemGone_ne _ _ _ _ _ _ he]
    exact hdeck e
  · rw [hmix]
    exact hrequest
  · rw [hklog]
    show _ ∈ k.log.records
    rw [hstored]
    exact List.mem_append_right _ (List.mem_singleton_self _)
  · rw [hfields]
    exact ⟨State.find_tag hfind, rfl, rfl, rfl, rfl, rfl, rfl⟩

/-! ### Blocks handed to a sounding deck (R29, R68, R70, R71) -/

theorem State.judgePrimed_sounding (h : (s.deck d).sounding = true) : s.judgePrimed d = s := by
  have hprimed : (s.deck d).primed = false := by
    unfold Deck.sounding at h
    unfold Deck.primed
    cases hstate : (s.deck d).state with
    | priming => rw [hstate] at h; exact absurd h (by decide)
    | _ => rfl
  simp only [State.judgePrimed, hprimed]

/-- The slot of a block handed to a sounding deck (R68). -/
theorem Deck.slotOf_sounding {x : Deck} (h : x.sounding = true) (b : Nat) (audio : List Byte) :
    x.slotOf b audio = if x.fetchLimit ≤ b ∨ 1024 * (b + 1) ≤ x.p then .free else .filled b audio := by
  simp only [Deck.slotOf, h, Bool.true_and, Bool.or_eq_true, decide_eq_true_eq]

/-- A sounding deck with a GOOD block (R29, R68). -/
def Deck.withBlock (x : Deck) (i : Fin 16) (b : Nat) (audio : List Byte) : Deck :=
  { x with ring := x.ring.set i (if x.fetchLimit ≤ b ∨ 1024 * (b + 1) ≤ x.p then .free else .filled b audio), run := 0 }

theorem State.handBlock_good (h : (s.deck d).sounding = true) (i : Fin 16) (b : Nat) (audio : List Byte) :
    s.handBlock d i b (some audio) = s.setDeck d ((s.deck d).withBlock i b audio) := by
  have hslot := Deck.slotOf_sounding h b audio
  simp only [State.handBlock, hslot]
  exact State.judgePrimed_sounding (by rw [State.deck_setDeck_self]; exact h)

/-- A sounding deck with a block that failed twice, below the fourth in a row (R70). -/
def Deck.withFailure (x : Deck) (i : Fin 16) (b : Nat) : Deck :=
  { x with
    ring := x.ring.set i (if x.fetchLimit ≤ b ∨ 1024 * (b + 1) ≤ x.p then .free else .filled b [])
    run := x.run + 1, substituted := min 255 (x.substituted + 1), storeFlag := true }

/-- The first setting of the STORE flag is reported (R70, R118). -/
def State.storeFlagFault (s : State) (flagged : Bool) (group : Nat) : State := if flagged then s else s.storeFault group

theorem State.storeFlagFault_frame (s : State) (flagged : Bool) (group : Nat) :
    ∃ m, s.storeFlagFault flagged group = { s with monitor := m } := by
  unfold State.storeFlagFault State.storeFault
  split
  · exact ⟨_, rfl⟩
  · split <;> exact ⟨_, rfl⟩

theorem State.handBlock_failed {it : Item} (h : (s.deck d).sounding = true) (hit : (s.deck d).item = some it)
    (hrun : (s.deck d).run < 3) (i : Fin 16) (b : Nat) : s.handBlock d i b none
      = (s.setDeck d ((s.deck d).withFailure i b)).storeFlagFault (s.deck d).storeFlag it.group.val := by
  have hslot := Deck.slotOf_sounding h b []
  have hmin : min 4 ((s.deck d).run + 1) = (s.deck d).run + 1 := by omega
  have hends : decide ((s.deck d).run + 1 = 4) = false := decide_eq_false (by omega)
  have hdeck : ((s.setDeck d ((s.deck d).withFailure i b)).storeFlagFault (s.deck d).storeFlag it.group.val).deck d
      = (s.deck d).withFailure i b := by
    obtain ⟨m, hm⟩ := (s.setDeck d ((s.deck d).withFailure i b)).storeFlagFault_frame (s.deck d).storeFlag it.group.val
    rw [hm]
    exact s.deck_setDeck_self d _
  refine Eq.trans ?_ (State.judgePrimed_sounding (by rw [hdeck]; exact h))
  simp only [State.handBlock, hslot, hmin, hends, hit, Bool.false_and, Bool.or_false, Bool.false_eq_true, if_false,
    Deck.withFailure, State.storeFlagFault]

/-- A deck whose item has come to its store end, before the fade-out (R71). -/
def Deck.atStoreEnd (x : Deck) (i : Fin 16) (b : Nat) : Deck :=
  { x.withFailure i b with storeEnd := true, fetchLimit := min x.fetchLimit x.fetchPtr }

theorem State.storeEndAt_playing {it : Item} (hend : (s.deck d).storeEnd = true) (hit : (s.deck d).item = some it)
    (hplay : (s.deck d).state = .playing) (hin : (s.deck d).fadeIn = none) :
    s.storeEndAt d = (((s.setDeck d ((s.deck d).fadeTo 0 480 it.law storeEndCause)).withdrawDuck d).takeSegue d s.now) := by
  have honce : (s.deck d).endsAtOnce 480 0 = false := by rw [Deck.endsAtOnce_playing hplay hin]; rfl
  simp only [State.storeEndAt, hend, hit, honce, Bool.false_eq_true, if_false]
  rw [State.requestFade_playing hplay hin (by decide)]

theorem State.handBlock_storeEnd {it : Item} (hplay : (s.deck d).state = .playing) (hit : (s.deck d).item = some it)
    (hrun : (s.deck d).run = 3) (hend : (s.deck d).storeEnd = false) (i : Fin 16) (b : Nat) : s.handBlock d i b none
      = (((s.setDeck d ((s.deck d).atStoreEnd i b)).storeFlagFault (s.deck d).storeFlag it.group.val).storeEndAt d).judgePrimed d := by
  have hs := Deck.sounding_of_playing hplay
  have hslot := Deck.slotOf_sounding hs b []
  simp only [State.handBlock, hslot, hrun, hend, hit, hs, Deck.atStoreEnd, Deck.withFailure]
  rfl

/-- The fields that the store-end fade of a PLAYING deck leaves (R71). -/
theorem State.storeEndAt_spec {it : Item} {tag : Nat} (hend : (s.deck d).storeEnd = true) (hit : (s.deck d).item = some it)
    (hplay : (s.deck d).state = .playing) (hin : (s.deck d).fadeIn = none) (hseg : (s.deck d).segued = false)
    (hb : (s.deck d).bound = some tag) :
    (s.storeEndAt d).deck d = { s.deck d with state := .fading, fadeOut := some ⟨0, 480, it.law, ⟨.faded, .store⟩⟩, segued := true }
      ∧ (∀ e : DeckNo, e ≠ d → (s.storeEndAt d).deck e = s.deck e) ∧ (s.storeEndAt d).mix.requests[d] = none
      ∧ (s.storeEndAt d).records = s.records ∧ (s.storeEndAt d).work = s.work ++ segueTasks (s.follower tag it.group) := by
  rw [State.storeEndAt_playing hend hit hplay hin, Deck.fadeTo_of_noFadeIn hin]
  have hdeck := State.deck_withdrawDuck (s.setDeck d { s.deck d with
    state := .fading, fadeOut := some ⟨0, 480, it.law, storeEndCause⟩ }) d
  have hrequest := State.request_withdrawDuck (s.setDeck d { s.deck d with
    state := .fading, fadeOut := some ⟨0, 480, it.law, storeEndCause⟩ }) d
  have hrecords := State.records_withdrawDuck (s.setDeck d { s.deck d with
    state := .fading, fadeOut := some ⟨0, 480, it.law, storeEndCause⟩ }) d
  have hwork := State.work_withdrawDuck (s.setDeck d { s.deck d with
    state := .fading, fadeOut := some ⟨0, 480, it.law, storeEndCause⟩ }) d
  generalize State.withdrawDuck _ d = u at hdeck hrequest hrecords hwork ⊢
  have hself := (hdeck d).trans (s.deck_setDeck_self d _)
  rw [State.takeSegue_reached (by rw [hself]; rfl) (by rw [hself]; exact hb) (by rw [hself]; exact hit) (by rw [hself]; exact hseg),
    State.handLive_frame, hself]
  have hfollower : u.follower tag it.group = s.follower tag it.group := by
    unfold State.follower
    rw [hrecords]
    rfl
  rw [hfollower]
  exact ⟨u.deck_setDeck_self d _, fun e he => (u.deck_setDeck_ne d e _ he.symm).trans ((hdeck e).trans (s.deck_setDeck_ne d e _ he.symm)),
    hrequest, hrecords, congrArg (· ++ segueTasks (s.follower tag it.group)) hwork⟩

/-- Settles O26: the block handed to its deck, by how its read ended. -/
theorem blocksFillTheirSlots : Obligations.BlocksFillTheirSlots := by
  refine ⟨fun s r d i b n data hrun h hkept hp hn hs => ?_, fun s r d it i b hrun h hkept hretry hp hs hit => ⟨fun hlt => ?_,
    fun tag hthree hend hplay hin hseg hb => ?_⟩⟩
  · rw [exec_storeCompletion_awaited hrun h hn true data, if_pos rfl, State.endRead_good hkept, hp]
    exact congrArg (fun x : State => Host.Outcome.next x.finish) (State.handBlock_good (s := s.readDone) hs i b data)
  · refine exec_readBad hrun h (congrArg State.finish ?_)
    rw [State.endRead_retry hkept hretry, hp]
    refine (State.handBlock_failed (s := s.readDone) hs hit hlt i b).trans ?_
    rfl
  · have hx : s.endRead r none = _ := (State.endRead_retry hkept hretry).trans ((congrArg s.readDone.readFailed hp).trans
      (State.handBlock_storeEnd (s := s.readDone) hplay hit hthree hend i b))
    obtain ⟨m, hm⟩ := (s.readDone.setDeck d ((s.readDone.deck d).atStoreEnd i b)).storeFlagFault_frame
      (s.readDone.deck d).storeFlag it.group.val
    rw [hm] at hx
    have hself : ({ s.readDone.setDeck d ((s.readDone.deck d).atStoreEnd i b) with monitor := m } : State).deck d
      = (s.deck d).atStoreEnd i b := State.deck_setDeck_self s.readDone d _
    have hothers (e : DeckNo) (he : e ≠ d) : ({ s.readDone.setDeck d ((s.readDone.deck d).atStoreEnd i b) with monitor := m } : State).deck e
      = s.deck e := State.deck_setDeck_ne s.readDone d e _ he.symm
    have hframe : ({ s.readDone.setDeck d ((s.readDone.deck d).atStoreEnd i b) with monitor := m } : State).records = s.records
      ∧ ({ s.readDone.setDeck d ((s.readDone.deck d).atStoreEnd i b) with monitor := m } : State).work = s.work := ⟨rfl, rfl⟩
    generalize ({ s.readDone.setDeck d ((s.readDone.deck d).atStoreEnd i b) with monitor := m } : State) = u at hx hself hothers hframe
    obtain ⟨hrecords, hwork⟩ := hframe
    obtain ⟨kdeck, kothers, krequest, krecords, kwork⟩ := State.storeEndAt_spec (s := u) (d := d) (it := it) (tag := tag)
      (by rw [hself]; rfl) (by rw [hself]; exact hit) (by rw [hself]; exact hplay) (by rw [hself]; exact hin) (by rw [hself]; exact hseg)
      (by rw [hself]; exact hb)
    rw [State.judgePrimed_sounding (by rw [kdeck]; rfl)] at hx
    have hfollower : u.follower tag it.group = s.follower tag it.group := by
      unfold State.follower
      rw [hrecords]
    refine ⟨u.storeEndAt d, ?_, fun e he => (kothers e he).trans (hothers e he), krequest, krecords.trans hrecords, ?_,
      exec_readBad hrun h (congrArg State.finish hx)⟩
    · rw [kdeck, hself]
      simp only [Deck.atStoreEnd, Deck.withFailure, hthree]
    · rw [kwork, hwork, hfollower]
      rfl

end Sys2Proof.Machine
end


section
/-! Laws of starts (R44, R45, R64): an item that starts on its deck, and the triggers that start an ARMED record. -/

namespace Sys2Proof.Machine

variable {s t u : State} {d : DeckNo}

/-! ### Records changed in place -/

theorem State.find_modRecord {tag : Nat} {r : CueRecord} (h : s.find tag = some r) (f : CueRecord → CueRecord)
    (hf : ∀ x, (f x).tag = x.tag) : (s.modRecord tag f).find tag = some (f r) := by
  have hcomp : ((fun x : CueRecord => x.tag == tag) ∘ fun x => if x.tag = tag then f x else x) = fun x => x.tag == tag := by
    funext x
    dsimp only [Function.comp]
    split
    · rw [hf]
    · rfl
  unfold State.find at h
  unfold State.find State.modRecord
  dsimp only
  rw [List.find?_map, hcomp, h, Option.map_some, if_pos (by simpa using List.find?_some h)]

/-! ### What the frames leave -/

@[simp] theorem State.withLine_decks (u s : State) : (u.withLine s).decks = u.decks := rfl
@[simp] theorem State.withLine_records (u s : State) : (u.withLine s).records = u.records := rfl
@[simp] theorem State.withLine_mix (u s : State) : (u.withLine s).mix = u.mix := rfl
@[simp] theorem State.withLine_monitor (u s : State) : (u.withLine s).monitor = u.monitor := rfl
@[simp] theorem State.withLine_work (u s : State) : (u.withLine s).work = u.work := rfl

theorem State.deck_congr (h : t.decks = s.decks) (d : DeckNo) : t.deck d = s.deck d := by
  unfold State.deck
  rw [h]

/-! ### The start of an item (R45, R64, R96) -/

/-- A truncation end acts on a deck's end position, truncation fade, fetch limit and ring alone (R78). -/
theorem State.applyTruncation_frame (s : State) (d : DeckNo) : ∃ e t l g,
    s.applyTruncation d = s.setDeck d { s.deck d with endPos := e, trunc := t, fetchLimit := l, ring := g } := by
  have hnone : s = s.setDeck d { s.deck d with
      endPos := (s.deck d).endPos, trunc := (s.deck d).trunc, fetchLimit := (s.deck d).fetchLimit, ring := (s.deck d).ring } :=
    congrArg (fun x => ({ s with decks := x } : State)) (s.setDeck_self d).symm
  unfold State.applyTruncation
  dsimp only
  split
  · split
    · exact ⟨_, _, _, _, hnone⟩
    · exact ⟨_, _, _, _, rfl⟩
  · exact ⟨_, _, _, _, hnone⟩

theorem State.activateDuck_frame (s : State) (d : DeckNo) (tag : Nat) (it : Item) : ∃ (q : Vector (Option DuckRequest) 4) (w : State),
    s.activateDuck d tag it = ({ s with mix := { s.mix with requests := q } } : State).withLine w := by
  unfold State.activateDuck
  split
  · exact ⟨s.mix.requests, s, rfl⟩
  · rw [State.handLive_frame]
    exact ⟨_, _, rfl⟩

/-- The state in which an item has its start, before truncation, duck request and START. -/
def State.startedAt (s : State) (r : CueRecord) (d : DeckNo) (it : Item) (p0 : Nat) (cold late : Bool) : State :=
  ((((s.modRecord r.tag fun r => r.goOnAir (subAir s.now p0) s.isLive cold late).cancelRecordExpiries r.tag).modDeck d
    fun x => x.startAt it p0 (subAir s.now p0)).setTimer d 0).zeroWords d

/-- What follows a start (R45, R66, R71, R83). -/
def startTasks (r : CueRecord) (d : DeckNo) (x : Deck) (passed : Bool) : List Task :=
  (if r.breakId.isSome then [.memberStarted r.tag] else []) ++ (if x.storeEnd then [.storeEnd d] else [])
    ++ (if passed then [.seguePast r.tag] else []) ++ markTasks d

theorem State.deck_startedAt_self (s : State) (r : CueRecord) (d : DeckNo) (it : Item) (p0 : Nat) (cold late : Bool) :
    (s.startedAt r d it p0 cold late).deck d = (s.deck d).startAt it p0 (subAir s.now p0) := by
  unfold State.startedAt
  rw [State.deck_congr (State.zeroWords_decks _ d), State.deck_congr (State.setTimer_decks _ d 0)]
  exact State.deck_setDeck_self _ d _

theorem State.deck_startedAt_ne (s : State) (r : CueRecord) (d e : DeckNo) (it : Item) (p0 : Nat) (cold late : Bool) (h : d ≠ e) :
    (s.startedAt r d it p0 cold late).deck e = s.deck e := by
  unfold State.startedAt
  rw [State.deck_congr (State.zeroWords_decks _ d), State.deck_congr (State.setTimer_decks _ d 0)]
  exact State.deck_setDeck_ne _ d e _ h

theorem State.startedAt_records (s : State) (r : CueRecord) (d : DeckNo) (it : Item) (p0 : Nat) (cold late : Bool) :
    (s.startedAt r d it p0 cold late).records
      = (s.modRecord r.tag fun r => r.goOnAir (subAir s.now p0) s.isLive cold late).records := by
  simp [State.startedAt, State.modDeck, State.cancelRecordExpiries]

theorem State.startedAt_work (s : State) (r : CueRecord) (d : DeckNo) (it : Item) (p0 : Nat) (cold late : Bool) :
    (s.startedAt r d it p0 cold late).work = s.work := by
  simp [State.startedAt, State.modDeck, State.cancelRecordExpiries]

theorem State.startedAt_words (s : State) (r : CueRecord) (d : DeckNo) (it : Item) (p0 : Nat) (cold late : Bool) :
    (s.startedAt r d it p0 cold late).mix.lastWord[d] = 0 ∧ (s.startedAt r d it p0 cold late).mix.newWord[d] = 0
      ∧ (s.startedAt r d it p0 cold late).monitor.timers[d] = 0 := by
  unfold State.startedAt
  generalize State.modDeck _ _ _ = u
  exact ⟨Vector.getElem_set_self .., Vector.getElem_set_self .., Vector.getElem_set_self ..⟩

/-- `x` has an item newly started at a position, its end, truncation, fetch limit and ring as the record's truncation end leaves them. -/
structure State.StartedAt (s x : State) (r : CueRecord) (d : DeckNo) (it : Item) (p0 : Nat) (cold late : Bool) : Prop where
  deck : ∃ e t l g, x.deck d = { (s.deck d).startAt it p0 (subAir s.now p0) with endPos := e, trunc := t, fetchLimit := l, ring := g }
  others : ∀ e : DeckNo, e ≠ d → x.deck e = s.deck e
  records : x.records = (s.modRecord r.tag fun r => r.goOnAir (subAir s.now p0) s.isLive cold late).records
  words : x.mix.lastWord[d] = 0 ∧ x.mix.newWord[d] = 0 ∧ x.monitor.timers[d] = 0
  work : x.work = s.work ++ startTasks r d (s.deck d) (it.passedAt p0)

/-- A start: what truncation, duck request and START change is the deck's end, the requests, bus and log. -/
theorem State.startDeck_spec (s : State) (r : CueRecord) (d : DeckNo) (it : Item) (since : Option Nat) (cold late : Bool) :
    s.StartedAt (s.startDeck r d it since cold late) r d it (catchUp s.now since) cold late := by
  have hstart : s.startDeck r d it since cold late
      = (fun a : State => (fun b : State => (fun c : State => c.emit (startTasks r d (c.deck d) (it.passedAt (catchUp s.now since))))
          (b.handLive (startNotice r (b.deck d) it (subAir s.now (catchUp s.now since)))))
        ((a.applyTruncation d).activateDuck d r.tag it)) (s.startedAt r d it (catchUp s.now since) cold late) := rfl
  have hself := s.deck_startedAt_self r d it (catchUp s.now since) cold late
  have hothers (e : DeckNo) := s.deck_startedAt_ne r d e it (catchUp s.now since) cold late
  have hrecords := s.startedAt_records r d it (catchUp s.now since) cold late
  have hwords := s.startedAt_words r d it (catchUp s.now since) cold late
  have hwork := s.startedAt_work r d it (catchUp s.now since) cold late
  generalize s.startedAt r d it (catchUp s.now since) cold late = a at hstart hself hothers hrecords hwords hwork
  obtain ⟨e, t, l, g, htrunc⟩ := a.applyTruncation_frame d
  obtain ⟨q, w, hduck⟩ := (a.applyTruncation d).activateDuck_frame d r.tag it
  rw [hself] at htrunc
  dsimp only at hstart
  rw [State.handLive_frame] at hstart
  generalize hc : State.withLine _ _ = c at hstart
  have hdecks : c.decks = (a.applyTruncation d).decks := by rw [← hc, State.withLine_decks, hduck, State.withLine_decks]
  have hmix : c.mix = { a.mix with requests := q } := by rw [← hc, State.withLine_mix, hduck, State.withLine_mix, htrunc, State.setDeck_mix]
  have hmonitor : c.monitor = a.monitor := by rw [← hc, State.withLine_monitor, hduck, State.withLine_monitor, htrunc, State.setDeck_monitor]
  have hcrecords : c.records = a.records := by rw [← hc, State.withLine_records, hduck, State.withLine_records, htrunc, State.setDeck_records]
  have hcwork : c.work = a.work := by rw [← hc, State.withLine_work, hduck, State.withLine_work, htrunc, State.setDeck_work]
  have hcdeck : c.deck d = { (s.deck d).startAt it (catchUp s.now since) (subAir s.now (catchUp s.now since)) with
      endPos := e, trunc := t, fetchLimit := l, ring := g } := by
    rw [State.deck_congr hdecks, htrunc, State.deck_setDeck_self]
  rw [hstart]
  refine ⟨⟨e, t, l, g, hcdeck⟩, fun e he => ?_, hcrecords.trans hrecords, ?_, ?_⟩
  · rw [State.deck_congr (State.emit_decks _ _), State.deck_congr hdecks, htrunc, State.deck_setDeck_ne _ _ _ _ he.symm, hothers e he.symm]
  · rw [State.emit_mix, State.emit_monitor, hmix, hmonitor]
    exact hwords
  · rw [State.emit_work, hcwork, hwork, hcdeck]
    rfl

/-! ### Triggers of an ARMED record (R44) -/

/-- A trigger of an ARMED record of a kind that displaces nothing starts it. -/
theorem State.trigger_ready {tag : Nat} {r : CueRecord} {it : Item} (h : s.Ready tag r d it) :
    s.trigger tag = s.startDeck r d it none false false := by
  have hunstarted : r.unstarted = true := by rw [CueRecord.unstarted, h.armed]; rfl
  have hnot : r.displacesNow = false := by rw [CueRecord.displacesNow, beq_eq_false_iff_ne.mpr h.kind]; rfl
  simp only [State.trigger, State.answerTrigger, State.startRecord, h.found, h.live, h.armed, h.deck, h.item, hunstarted, hnot,
    Bool.not_true, Bool.false_eq_true, if_false]

theorem State.started_of_ready {tag : Nat} {r : CueRecord} {it : Item} (h : s.Ready tag r d it) : s.Started (s.trigger tag) tag d it := by
  have hafter := s.after_trigger tag
  rw [State.trigger_ready h] at hafter ⊢
  obtain ⟨⟨e, t, l, g, hdeck⟩, hothers, hrecords, ⟨hlast, hnew, htimer⟩, -⟩ := s.startDeck_spec r d it none false false
  generalize s.startDeck r d it none false false = x at hafter hdeck hothers hrecords hlast hnew htimer ⊢
  obtain rfl : r.tag = tag := State.find_tag h.found
  have hfind : x.find r.tag = (s.modRecord r.tag fun r => r.goOnAir (subAir s.now 0) s.isLive false false).find r.tag := by
    unfold State.find
    rw [hrecords]
    rfl
  have htags : x.tags = s.tags := by
    refine Eq.trans ?_ (s.tags_modRecord r.tag (fun r => r.goOnAir (subAir s.now 0) s.isLive false false) fun _ => rfl)
    unfold State.tags
    rw [hrecords]
    rfl
  exact {
    playing := by rw [hdeck]; rfl
    position := by rw [hdeck]; rfl
    start := by rw [hdeck]; rfl
    fresh := by rw [hdeck]; exact ⟨rfl, rfl, rfl, rfl⟩
    fadeIn := by rw [hdeck]; rfl
    words := ⟨hlast, hnew⟩
    timer := htimer
    record := ⟨_, hfind.trans (State.find_modRecord h.found _ fun _ => rfl), rfl, rfl, rfl, rfl, by rw [CueRecord.goOnAir, h.live, Bool.or_true]⟩
    others := hothers
    order := htags
    after := hafter }

/-- Being READY depends on the records, the decks and the role state alone. -/
theorem State.Ready.congr {tag : Nat} {r : CueRecord} {it : Item} (h : s.Ready tag r d it) (hpair : t.pair = s.pair)
    (hrecords : t.records = s.records) (hdecks : t.decks = s.decks) : t.Ready tag r d it where
  live := by rw [State.isLive, hpair]; exact h.live
  found := by rw [State.find, hrecords]; exact h.found
  armed := h.armed
  kind := h.kind
  deck := h.deck
  item := by rw [State.deck_congr hdecks]; exact h.item

/-- Settles O33: a GO triggers the record it finds. -/
theorem gosStartTheEarliestArmedRecord : Obligations.GosStartTheEarliestArmedRecord := by
  refine ⟨fun s h g r d it htakes hfind hready => ?_, fun s h g htakes hrest hnone => ?_⟩
  · have hheard : (s.onHearing h).Ready r.tag r d it := hready.congr (s.onHearing_pair h) rfl (s.onHearing_decks h)
    have hgo : (s.onHearing h).takeGo g.toNat = (s.onHearing h).trigger r.tag := by
      have hfound : (s.onHearing h).records.find? (fun r => r.group.val == g.toNat && r.kind == .go && r.state == .armed) = some r := hfind
      simp only [State.takeGo, hheard.live, if_true, hfound]
    refine ⟨_, ?_, State.started_of_ready hheard⟩
    rw [exec_go htakes.running, State.hearGo, htakes.heard, hgo]
  · rw [exec_go htakes.running, State.hearGo, htakes.heard]
    have hgo : (s.onHearing h).takeGo g.toNat = s.onHearing h := by
      unfold State.takeGo
      obtain hlive | hnot := hnone
      · exact if_neg (by rw [Bool.not_eq_true]; exact hlive)
      · have hnotfound : (s.onHearing h).records.find? (fun r => r.group.val == g.toNat && r.kind == .go && r.state == .armed) = none := by
          rw [List.find?_eq_none]
          intro r hr
          simpa [and_assoc] using hnot r hr
        rw [hnotfound, ite_self]
    rw [hgo, State.finish_atRest (hrest.onHearing h)]

/-- An air-time expiry that is the only one due is removed and acts. -/
theorem State.airEvent_single {k : AirHandle} {n : Nat} (h : s.delivered k = [⟨k, n⟩]) :
    s.airEvent k = ((s.cancelAir k).airFired k (lateness n s.now)).finish := by
  simp only [State.airEvent, h]
  rfl

/-- Settles O52: each of the three expiries triggers its record. -/
theorem dueExpiriesStartArmedRecords : Obligations.DueExpiriesStartArmedRecords := by
  intro s tag r d it n hrun hready
  have hcancel (k : AirHandle) : (s.cancelAir k).Ready tag r d it := hready.congr rfl rfl rfl
  refine ⟨fun h => ⟨_, ?_, State.started_of_ready (hcancel _)⟩, fun h => ?_, fun h hsoft hpred => ⟨_, ?_, State.started_of_ready (hcancel _)⟩⟩
  · rw [exec_latestStartExpiry hrun, State.airEvent_single h]
    simp only [State.airFired, State.latestStartFired, (hcancel _).found]
  · have hclear : ((s.cancelAir (.scheduledStart tag)).modRecord tag fun r => { r with scheduled := none }).Ready tag
        { r with scheduled := none } d it := {
      live := hready.live
      found := State.find_modRecord (hcancel _).found (fun r => { r with scheduled := none }) fun _ => rfl
      armed := hready.armed
      kind := hready.kind
      deck := hready.deck
      item := hready.item }
    have hstarted := State.started_of_ready hclear
    refine ⟨_, ?_, { hstarted with order := ?_, after := ?_ }⟩
    · rw [exec_scheduledStartExpiry hrun, State.airEvent_single h]
      simp only [State.airFired, State.scheduledStartFired, (hcancel _).found]
    · exact hstarted.order.trans (State.tags_modRecord _ _ _ fun _ => rfl)
    · exact .andThen hstarted.after (State.after_modRecord _ _ fun _ => rfl)
  · have hahead : (s.cancelAir (.startTime tag)).clearAhead r = true := by
      have hp : (s.cancelAir (.startTime tag)).predecessor r.tag r.group = none := by
        rw [State.find_tag hready.found]
        exact hpred
      simp only [State.clearAhead, hp]
    rw [exec_startTimeExpiry hrun, State.airEvent_single h]
    simp only [State.airFired, State.startTimeFired, (hcancel _).found, hsoft, hahead, if_true]

end Sys2Proof.Machine
end


section
/-! Laws of LOAD and DROP (R36 to R38, R54, R71). -/

namespace Sys2Proof.Machine

variable {s t u : State} {d : DeckNo}

/-! ### The fields of a LOAD (R36) -/

theorem loadPeerStation_eq (f : LoadFields) : loadPeerStation f = f.start.toNat / 2 ^ 24 := by
  have hlt := f.start.isLt
  simp only [loadPeerStation, BitVec.extractLsb'_toNat, Nat.shiftRight_eq_div_pow]
  omega

theorem loadPeerTag_eq (f : LoadFields) : loadPeerTag f = f.start.toNat / 2 ^ 8 % 2 ^ 16 := by
  simp only [loadPeerTag, BitVec.extractLsb'_toNat, Nat.shiftRight_eq_div_pow]

/-- The start fields of a LOAD out of their ranges (R36). -/
def State.badLoadStart (s : State) (f : LoadFields) : Prop := 5 < f.kind.toNat ∨ (f.kind.toNat ≤ 1 ∧ 4147200000 ≤ f.start.toNat)
  ∨ (f.kind.toNat = 4 ∧ (15 < f.start.toNat / 2 ^ 24 ∨ f.start.toNat / 2 ^ 24 = s.ownStation.val ∨ f.start.toNat / 2 ^ 8 % 2 ^ 16 = 0))

/-- A field of a LOAD out of its range (R36). -/
def State.badLoad (s : State) (f : LoadFields) : Prop := 3 < f.group.toNat ∨ s.badLoadStart f ∨ 1 < f.law.toNat
  ∨ (f.latest.toNat ≠ 0xFFFFFFFF ∧ 4147200000 ≤ f.latest.toNat) ∨ (f.breakId ≠ 0 ∧ f.group = 0)

theorem readLaw_isNone (l : BitVec 2) : (readLaw l).isNone = true ↔ 1 < l.toNat := by
  unfold readLaw
  split
  · simp_all
  · simp_all
  · rename_i h0 h1
    have : 1 < l.toNat := by
      by_contra hle
      have : l.toNat = 0 ∨ l.toNat = 1 := by omega
      exact this.elim h0 h1
    simp [this]

/-- The reader's test of a start, as `loadRefusal` writes it. -/
def State.badStart (s : State) (f : LoadFields) : Bool := match readStartKind f.kind with
  | none => true
  | some .hardAt => decide (dayLength ≤ f.start.toNat)
  | some .softAt => decide (dayLength ≤ f.start.toNat)
  | some .afterPeer => decide (15 < loadPeerStation f) || loadPeerStation f == s.ownStation.val || loadPeerTag f == 0
  | some .afterPrev => false
  | some .followPrev => false
  | some .go => false

theorem readStartKind_cases (k : BitVec 3) : (k.toNat = 0 ∧ readStartKind k = some .hardAt) ∨ (k.toNat = 1 ∧ readStartKind k = some .softAt)
    ∨ (k.toNat = 2 ∧ readStartKind k = some .afterPrev) ∨ (k.toNat = 3 ∧ readStartKind k = some .followPrev)
    ∨ (k.toNat = 4 ∧ readStartKind k = some .afterPeer) ∨ (k.toNat = 5 ∧ readStartKind k = some .go)
    ∨ (5 < k.toNat ∧ readStartKind k = none) := by
  revert k
  decide

theorem dayLength_le_iff (n : Nat) : dayLength ≤ n ↔ 4147200000 ≤ n := Iff.rfl

theorem State.badStart_iff (s : State) (f : LoadFields) : s.badStart f = true ↔ s.badLoadStart f := by
  unfold State.badStart State.badLoadStart
  obtain ⟨hk, hr⟩ | ⟨hk, hr⟩ | ⟨hk, hr⟩ | ⟨hk, hr⟩ | ⟨hk, hr⟩ | ⟨hk, hr⟩ | ⟨hk, hr⟩ := readStartKind_cases f.kind <;>
    rw [hr] <;> simp [hk, dayLength_le_iff, loadPeerStation_eq, loadPeerTag_eq, or_assoc]

/-- The tests of R36 in their order. -/
theorem State.loadRefusal_eq (s : State) (f : LoadFields) [Decidable (s.badLoad f)] : s.loadRefusal f =
    if f.tag.toNat = 0 ∨ 65280 ≤ f.tag.toNat then some .reservedTag
    else if s.badLoad f then some .badField
    else if f.tag.toNat ∈ s.tags then some .duplicate
    else if 48 ≤ s.records.length then some .full
    else none := by
  have hlatest : (match readLoadTime f.latest with | none => false | some t => decide (dayLength ≤ t)) = true
      ↔ f.latest.toNat ≠ 0xFFFFFFFF ∧ 4147200000 ≤ f.latest.toNat := by
    unfold readLoadTime optional32
    by_cases h : f.latest.toNat = 0xFFFFFFFF
    · simp [h]
    · simp [h, dayLength_le_iff]
  have hbad : (decide (3 < f.group.toNat) || s.badStart f || (readLaw f.law).isNone
      || (match readLoadTime f.latest with | none => false | some t => decide (dayLength ≤ t)) || (f.breakId != 0 && f.group == 0)) = true
      ↔ s.badLoad f := by
    rw [Bool.or_eq_true, Bool.or_eq_true, hlatest, Bool.or_eq_true, Bool.or_eq_true, readLaw_isNone, s.badStart_iff]
    simp only [decide_eq_true_eq, Bool.and_eq_true, bne_iff_ne, beq_iff_eq, State.badLoad, or_assoc]
  have hdup : (s.find f.tag.toNat).isSome = true ↔ f.tag.toNat ∈ s.tags := by
    rw [← not_iff_not, ← s.find_none_iff, Bool.not_eq_true, Option.isSome_eq_false_iff, Option.isNone_iff_eq_none]
  have hdef : s.loadRefusal f = if f.tag.toNat = 0 ∨ 65280 ≤ f.tag.toNat then some .reservedTag
      else if (decide (3 < f.group.toNat) || s.badStart f || (readLaw f.law).isNone
        || (match readLoadTime f.latest with | none => false | some t => decide (dayLength ≤ t)) || (f.breakId != 0 && f.group == 0)) = true
        then some .badField
      else if (s.find f.tag.toNat).isSome = true then some .duplicate
      else if 48 ≤ s.records.length then some .full
      else none := rfl
  rw [hdef]
  simp only [hbad, hdup]

/-- Settles O28: the tests in their order; a refused LOAD stores its as-run record. -/
theorem refusedLoadsAreLogged : Obligations.RefusedLoadsAreLogged := by
  classical
  refine ⟨fun s f => ?_, fun s h f why htakes hrest hwhy => ?_⟩
  · have hbad : s.badLoad f ↔ (3 < f.group.toNat ∨ 5 < f.kind.toNat ∨ 1 < f.law.toNat ∨ (f.kind.toNat ≤ 1 ∧ 4147200000 ≤ f.start.toNat)
        ∨ (f.latest.toNat ≠ 0xFFFFFFFF ∧ 4147200000 ≤ f.latest.toNat)
        ∨ (f.kind.toNat = 4 ∧ (15 < f.start.toNat / 2 ^ 24 ∨ f.start.toNat / 2 ^ 24 = s.ownStation.val ∨ f.start.toNat / 2 ^ 8 % 2 ^ 16 = 0))
        ∨ (f.breakId ≠ 0 ∧ f.group = 0)) := by
      unfold State.badLoad State.badLoadStart
      tauto
    dsimp only
    rw [← hbad, s.loadRefusal_eq f]
    refine ⟨fun hr => if_pos hr, fun hr hb => ?_, fun hr hb hm => ?_, fun hr hb hm hl => ?_, fun hr hb hm hl => ?_⟩
    · rw [if_neg hr, if_pos hb]
    · rw [if_neg hr, if_neg hb, if_pos hm]
    · rw [if_neg hr, if_neg hb, if_neg hm, if_pos hl]
    · rw [if_neg hr, if_neg hb, if_neg hm, if_neg (Nat.not_le.mpr hl)]
  · have htake : (s.onHearing h).takeLoad f = (s.onHearing h).storeAsRun (refusedLoad f why) := by
      have hwhy' : (s.onHearing h).loadRefusal f = some why := hwhy
      simp only [State.takeLoad, hwhy']
    have hframe := (s.onHearing h).storeAsRun_frame (refusedLoad f why)
    have hrest' : ((s.onHearing h).storeAsRun (refusedLoad f why)).AtRest := by
      rw [hframe]
      exact hrest.onHearing h
    have hexec : exec (.load h f) s = .next ((s.onHearing h).storeAsRun (refusedLoad f why)) := by
      rw [exec_load htakes.running, State.hearLoad, htakes.heard, htake, State.finish_atRest hrest']
    have hroom := State.storeAsRun_room (s := s.onHearing h) (a := refusedLoad f why)
    have hfull := State.storeAsRun_full (s := s.onHearing h) (a := refusedLoad f why)
    refine ⟨_, hexec, hframe, fun hlt => ?_, fun hle => ?_⟩
    · exact ⟨(hroom hlt).records, (hroom hlt).nextSeq, (hroom hlt).lost⟩
    · exact ⟨(hfull hle).records, (hfull hle).nextSeq, (hfull hle).lost⟩

/-! ### An accepted LOAD (R13, R37, R38) -/

/-- The air-time expiries with an optional one set (R13). -/
def airSet (now : Nat) (h : AirHandle) (l : List AirExpiry) : Option Nat → List AirExpiry
  | none => l
  | some n => l.filter (fun x => x.handle != h) ++ (if isDue n now = true then [] else [⟨h, n⟩])

/-- The firing of an optional expiry that is due when it is set (R13). -/
def airFires (now : Nat) (h : AirHandle) : Option Nat → List Task
  | none => []
  | some n => if isDue n now = true then [.fired h (lateness n now)] else []

/-- A state with other air-time expiries and reactions. -/
def State.withAir (s : State) (l : List AirExpiry) (ts : List Task) : State := { s with airExpiries := l, work := ts }

theorem State.setAirOpt_eq (s : State) (h : AirHandle) (t : Option Nat) :
    s.setAirOpt h t = s.withAir (airSet s.now h s.airExpiries t) (s.work ++ airFires s.now h t) := by
  cases t with
  | none => exact congrArg (s.withAir s.airExpiries) (List.append_nil s.work).symm
  | some n =>
    have hnow : (s.cancelAir h).now = s.now := rfl
    unfold State.setAirOpt State.setAir airSet airFires State.withAir
    dsimp only
    rw [hnow]
    split
    · rw [List.append_nil]
      rfl
    · rw [List.append_nil]
      rfl

/-- A LOAD that no test of R36 refuses. -/
theorem State.accepted_iff (s : State) (f : LoadFields) : s.loadRefusal f = none ↔
    ¬ (f.tag.toNat = 0 ∨ 65280 ≤ f.tag.toNat) ∧ ¬ s.badLoad f ∧ f.tag.toNat ∉ s.tags ∧ s.records.length < 48 := by
  classical
  rw [s.loadRefusal_eq f]
  constructor
  · intro h
    split at h
    · exact nomatch h
    · split at h
      · exact nomatch h
      · split at h
        · exact nomatch h
        · split at h
          · exact nomatch h
          · exact ⟨by assumption, by assumption, by assumption, by omega⟩
  · rintro ⟨hr, hb, hm, hl⟩
    rw [if_neg hr, if_neg hb, if_neg hm, if_neg (Nat.not_le.mpr hl)]

/-- What an accepted LOAD asks for after its expiries (R38). -/
def State.loadTasks (s : State) (r : CueRecord) : List Task :=
  (if r.breakId.isSome then [.joined r.tag] else []) ++ [.judgeNew r.tag]
    ++ (match s.follower r.tag r.group with | none => [] | some f => [.rejudge f])

/-- A new record in its place, its fetch queued. -/
def State.withLoaded (s : State) (r : CueRecord) (before : Nat) : State :=
  { s with records := insertBefore before r s.records
           reader := { s.reader with queue := s.reader.queue ++ [⟨.record r.tag, r.cart⟩] } }

theorem State.acceptLoad_eq (h : s.reader.queue.length < 48) (r : CueRecord) (before : Nat) :
    s.acceptLoad r before = (s.withLoaded r before).withAir
      (airSet s.now (.latestStart r.tag) (airSet s.now (.startTime r.tag) s.airExpiries r.startTime) r.latest)
      (s.work ++ airFires s.now (.startTime r.tag) r.startTime ++ airFires s.now (.latestStart r.tag) r.latest
        ++ (s.withLoaded r before).loadTasks r) := by
  have hask : ({ s with records := insertBefore before r s.records } : State).askRecordFetch r.tag r.cart = s.withLoaded r before := if_pos h
  have hset : ((s.withLoaded r before).setAirOpt (.startTime r.tag) r.startTime).setAirOpt (.latestStart r.tag) r.latest
      = (s.withLoaded r before).withAir
        (airSet s.now (.latestStart r.tag) (airSet s.now (.startTime r.tag) s.airExpiries r.startTime) r.latest)
        (s.work ++ airFires s.now (.startTime r.tag) r.startTime ++ airFires s.now (.latestStart r.tag) r.latest) := by
    rw [State.setAirOpt_eq, State.setAirOpt_eq]
    rfl
  unfold State.acceptLoad
  dsimp only
  rw [hask, hset]
  rfl

theorem readLaw_getD {l : BitVec 2} (h : ¬ 1 < l.toNat) : readLaw l = some ((readLaw l).getD .linear) := by
  have hsome : (readLaw l).isNone = false := by rw [Bool.eq_false_iff, ne_eq, readLaw_isNone]; exact h
  cases hl : readLaw l with
  | none => rw [hl] at hsome; exact nomatch hsome
  | some k => rfl

theorem readGroup_getD {n : Nat} (h : ¬ 3 < n) : ((readGroup n).getD 0).val = n := by
  rw [readGroup, dif_pos (by omega)]
  rfl

/-- The AFTER_PEER fields of a LOAD that passes the tests (R36). -/
theorem State.loadPeerStation_lt {f : LoadFields} (h : ¬ s.badLoadStart f) (hk : readStartKind f.kind = some .afterPeer) :
    loadPeerStation f < 16 := by
  by_contra hlt
  refine h (.inr (.inr ⟨?_, .inl ?_⟩))
  · obtain ⟨-, hr⟩ | ⟨-, hr⟩ | ⟨-, hr⟩ | ⟨-, hr⟩ | ⟨hk4, -⟩ | ⟨-, hr⟩ | ⟨-, hr⟩ := readStartKind_cases f.kind
    case inr.inr.inr.inr.inl => exact hk4
    all_goals exact nomatch hr.symm.trans hk
  · rw [← loadPeerStation_eq]
    omega

/-- Settles O29: the new record, and what is done for it. -/
theorem acceptedLoadsJoinTheOrder : Obligations.AcceptedLoadsJoinTheOrder := by
  intro s h f htakes haccept hqueue
  obtain ⟨-, hgood, -, -⟩ := (s.accepted_iff f).mp haccept
  have hgroup : ¬ 3 < f.group.toNat := fun k => hgood (.inl k)
  have hstart : ¬ s.badLoadStart f := fun k => hgood (.inr (.inl k))
  have hlaw : ¬ 1 < f.law.toNat := fun k => hgood (.inr (.inr (.inl k)))
  obtain ⟨k, hk⟩ : ∃ k, readStartKind f.kind = some k := by
    cases hr : readStartKind f.kind with
    | some k => exact ⟨k, rfl⟩
    | none =>
      refine absurd ((s.badStart_iff f).mp ?_) hstart
      simp only [State.badStart, hr]
  have htake : (s.onHearing h).takeLoad f = (s.onHearing h).acceptLoad (newRecord f k) f.before.toNat := by
    have haccept' : (s.onHearing h).loadRefusal f = none := haccept
    simp only [State.takeLoad, haccept', hk]
  have hx := State.acceptLoad_eq (s := s.onHearing h) hqueue (newRecord f k) f.before.toNat
  have hexec : exec (.load h f) s = .next ((s.onHearing h).acceptLoad (newRecord f k) f.before.toNat).finish := by
    rw [exec_load htakes.running, State.hearLoad, htakes.heard, htake]
  rw [hx] at hexec
  refine ⟨_, newRecord f k, hexec, rfl, rfl, rfl, readGroup_getD hgroup, rfl, rfl, hk, rfl, fun hp => ?_, fun hp => if_neg hp, rfl,
    readLaw_getD hlaw, rfl, rfl, rfl, rfl, rfl, rfl, rfl, rfl, rfl, rfl, rfl, rfl, rfl, rfl, rfl, rfl, rfl, ?_, rfl⟩
  · obtain rfl : k = .afterPeer := hp
    have hlt := State.loadPeerStation_lt hstart hk
    exact ⟨Fin.ofNat 16 (loadPeerStation f), Nat.mod_eq_of_lt hlt, rfl⟩
  · show _ ++ State.loadTasks _ _ = _
    rw [State.loadTasks, ← List.append_assoc, ← List.append_assoc]
    rfl

end Sys2Proof.Machine
end


section
/-! Laws of DROP (R54, R71) and of records that leave unstarted. -/

namespace Sys2Proof.Machine

variable {s t u : State} {d : DeckNo}

/-! ### What a departure leaves (R57) -/

@[simp] theorem State.withLine_log (u s : State) : (u.withLine s).log = s.log := rfl

@[simp] theorem State.without_records (s : State) (tag : Nat) : (s.without tag).records = s.records.filter fun x => x.tag != tag := rfl
@[simp] theorem State.without_log (s : State) (tag : Nat) : (s.without tag).log = s.log := rfl
@[simp] theorem State.without_decks (s : State) (tag : Nat) : (s.without tag).decks = s.decks := rfl
@[simp] theorem State.without_mix (s : State) (tag : Nat) : (s.without tag).mix = s.mix := rfl
@[simp] theorem State.without_monitor (s : State) (tag : Nat) : (s.without tag).monitor = s.monitor := rfl
@[simp] theorem State.without_work (s : State) (tag : Nat) : (s.without tag).work = s.work.filter fun k => k.record? != some tag := rfl

@[simp] theorem State.withReader_records (u s : State) : (u.withReader s).records = u.records := rfl
@[simp] theorem State.withReader_log (u s : State) : (u.withReader s).log = u.log := rfl
@[simp] theorem State.withReader_decks (u s : State) : (u.withReader s).decks = u.decks := rfl
@[simp] theorem State.withReader_mix (u s : State) : (u.withReader s).mix = u.mix := rfl
@[simp] theorem State.withReader_monitor (u s : State) : (u.withReader s).monitor = u.monitor := rfl
@[simp] theorem State.withReader_work (u s : State) : (u.withReader s).work = u.work := rfl

@[simp] theorem State.withBreaks_records (u s : State) : (u.withBreaks s).records = u.records := rfl
@[simp] theorem State.withBreaks_log (u s : State) : (u.withBreaks s).log = u.log := rfl
@[simp] theorem State.withBreaks_decks (u s : State) : (u.withBreaks s).decks = u.decks := rfl
@[simp] theorem State.withBreaks_mix (u s : State) : (u.withBreaks s).mix = u.mix := rfl
@[simp] theorem State.withBreaks_monitor (u s : State) : (u.withBreaks s).monitor = u.monitor := rfl
@[simp] theorem State.withBreaks_work (u s : State) : (u.withBreaks s).work = u.work := rfl

/-- A record that leaves takes nothing else from the list, and its as-run record goes to the log. -/
theorem State.removeRecord_leaves {tag : Nat} {r : CueRecord} (h : s.find tag = some r) (c : Cause) (byFit : Bool) :
    (s.removeRecord tag c byFit).records = s.records.filter (fun x => x.tag != tag)
      ∧ (s.removeRecord tag c byFit).log = (s.storeAsRun (s.asRunOf r c)).log
      ∧ (s.removeRecord tag c byFit).mix = s.mix
      ∧ (s.removeRecord tag c byFit).work = s.work.filter (fun k => k.record? != some tag) := by
  obtain ⟨w, z, hgone⟩ := s.recordGone_frame r tag c byFit
  have hrecord : (s.recordGone r tag c byFit).records = s.records.filter (fun x => x.tag != tag)
      ∧ (s.recordGone r tag c byFit).log = (s.storeAsRun (s.asRunOf r c)).log ∧ (s.recordGone r tag c byFit).mix = s.mix
      ∧ (s.recordGone r tag c byFit).work = s.work.filter (fun k => k.record? != some tag) := by
    rw [hgone]
    simp
  rw [State.removeRecord_eq h]
  cases r.deck with
  | none => exact hrecord
  | some d =>
    obtain ⟨w', hfree⟩ := (s.recordGone r tag c byFit).freeDeck_frame d r.sounding
    dsimp only
    rw [hfree]
    simpa using hrecord

/-- The as-run record of a record that leaves unstarted (R190). -/
theorem State.asRunOf_unstarted {r : CueRecord} (h : r.unstarted = true) (c : Cause) : s.asRunOf r c =
    { tag := r.tag, cart := r.cart, group := r.group.val, cls := r.snapshot.map (·.cls), outcome := c.outcome
      reason := c.reason, breakId := r.breakId, start := none, finish := none, aired := 0, substituted := 0, flags := r.flags } := by
  have hs : r.sounding = false := by
    have h' : r.state.unstarted = true := h
    rw [CueRecord.sounding, h']
    rfl
  have hc : r.finalCause c = c := by
    unfold CueRecord.finalCause
    rw [if_neg]
    intro hstate
    rw [CueRecord.unstarted, hstate] at h
    exact nomatch h
  simp only [State.asRunOf, hs, hc, Bool.false_eq_true, if_false]
  rfl

/-- A departure in normal form: the record gone from the list, its as-run record stored. -/
theorem State.depart_leaves {tag : Nat} {r : CueRecord} (h : s.find tag = some r) (c : Cause) :
    (s.depart tag c).records = s.records.filter (fun x => x.tag != tag)
      ∧ (s.depart tag c).log = (s.storeAsRun (s.asRunOf r c)).log := by
  obtain ⟨hrecords, hlog, -, -⟩ := State.removeRecord_leaves h c false
  rw [State.depart_eq h, State.emit_records, State.emit_log]
  exact ⟨hrecords, hlog⟩

theorem State.notMem_tags_filter {tag : Nat} (h : t.records = s.records.filter fun x => x.tag != tag) : tag ∉ t.tags := by
  simp [State.tags, h]

/-! ### DROP (R54, R71) -/

theorem State.takeDrop_unstarted {tag : Nat} {r : CueRecord} (h : s.find tag = some r) (hr : r.unstarted = true) :
    s.takeDrop tag = s.depart tag ⟨.dropped, .byLoader⟩ := by
  have hstate : r.state.unstarted = true := hr
  simp only [State.takeDrop, h]
  cases hs : r.state with
  | onAir => rw [hs] at hstate; exact nomatch hstate
  | clearing => rw [hs] at hstate; exact nomatch hstate
  | _ => rfl

theorem State.takeDrop_onAir {tag : Nat} {r : CueRecord} (h : s.find tag = some r) (hr : r.state = .onAir) (hd : r.deck = some d) :
    s.takeDrop tag = if (s.deck d).takesDrop then s.requestFade d r.fadeOutLen r.law ⟨.faded, .byLoader⟩ 0 else s := by
  simp only [State.takeDrop, h, hr, hd]

theorem exec_drop_takes {h : Header} (htakes : s.Takes h) (tag : BitVec 16) :
    exec (.drop h tag) s = .next ((s.onHearing h).takeDrop tag.toNat).finish := by
  rw [exec_drop htakes.running, State.hearDrop, htakes.heard]

theorem Deck.fadeEntry_fading_zero {x : Deck} (h : x.state = .fading) {f : FadeOut} (hout : x.fadeOut = some f) (len : Nat) :
    x.fadeEntry len 0 = if len = 0 ∨ (len : Int) - roundDiv (f.pos * len) f.len < (f.len : Int) - f.pos
      then some (roundDiv (f.pos * len) f.len) else none := by
  rw [Deck.fadeEntry_fading h hout]
  simp only [Nat.max_zero]

/-- Settles O31: DROP by the record's state and its deck's fade. -/
theorem dropsActByTheRecordsState : Obligations.DropsActByTheRecordsState := by
  refine ⟨fun s h tag r htakes hfind hr htag hroom => ?_, fun s h tag r d htakes hfind hr hd hplay hin hlen => ?_,
    fun s h tag htakes hrest hnot => ?_, fun s h tag r d f htakes hrest hfind hr hd hfading hout hcause => ?_⟩
  · have hfind' : (s.onHearing h).find tag.toNat = some r := hfind
    have hafter := ((s.onHearing h).after_takeDrop tag.toNat)
    have hfinish := State.after_finish (s := (s.onHearing h).takeDrop tag.toNat)
    obtain ⟨hrecords, hlog⟩ := State.depart_leaves hfind' ⟨.dropped, .byLoader⟩
    rw [← State.takeDrop_unstarted hfind' hr] at hrecords hlog
    rw [State.asRunOf_unstarted hr] at hlog
    have hstored := (State.storeAsRun_room (s := s.onHearing h) hroom _).records.symm.trans (congrArg AsRunLog.records hlog).symm |>.symm
    refine ⟨_, exec_drop_takes htakes tag, fun hmem => ?_, ⟨_, hfinish.appends.subset (by
      rw [hstored]
      exact List.mem_append_right _ (List.mem_singleton_self _)), rfl, rfl, rfl, rfl, rfl, rfl, rfl⟩,
      (hafter.still.symm.trans hfinish.still.symm)⟩
    obtain hin | hfill := hfinish.tags _ hmem
    · exact State.notMem_tags_filter hrecords hin
    · omega
  · rw [exec_drop_takes htakes tag, State.takeDrop_onAir (s := s.onHearing h) hfind hr hd]
    have hplay' : ((s.onHearing h).deck d).state = .playing := by rw [State.deck_onHearing]; exact hplay
    have hin' : ((s.onHearing h).deck d).fadeIn = none := by rw [State.deck_onHearing]; exact hin
    rw [if_pos (Deck.takesDrop_of_playing hplay'), State.requestFade_playing hplay' hin' hlen, Deck.fadeTo_of_noFadeIn hin',
      State.deck_onHearing]
  · have hself : (s.onHearing h).takeDrop tag.toNat = s.onHearing h := by
      obtain hnone | ⟨r, hfind, hclear | ⟨d, hr, hd, hfading, hcause⟩⟩ := hnot
      · have hnone' : (s.onHearing h).find tag.toNat = none := hnone
        simp only [State.takeDrop, hnone']
      · have hfind' : (s.onHearing h).find tag.toNat = some r := hfind
        simp only [State.takeDrop, hfind', hclear]
      · rw [State.takeDrop_onAir (s := s.onHearing h) hfind hr hd, State.deck_onHearing, Deck.takesDrop_of_other_fade hfading hcause,
          if_neg (by decide)]
    rw [exec_drop_takes htakes tag, hself, State.finish_atRest (hrest.onHearing h)]
  · have htake : (s.onHearing h).takeDrop tag.toNat = if Config.storeEndTakesDrop
        then (s.onHearing h).requestFade d r.fadeOutLen r.law ⟨.faded, .byLoader⟩ 0 else s.onHearing h := by
      rw [State.takeDrop_onAir (s := s.onHearing h) hfind hr hd, State.deck_onHearing, Deck.takesDrop_of_storeEnd hfading hout hcause]
    have hentry := Deck.fadeEntry_fading_zero hfading hout r.fadeOutLen
    rw [← s.deck_onHearing h d] at hentry
    have hrest' := State.finish_atRest (hrest.onHearing h)
    have hq : (2 * (f.pos * r.fadeOutLen) + f.len) / (2 * f.len) = roundDiv (f.pos * r.fadeOutLen) f.len := rfl
    dsimp only
    rw [exec_drop_takes htakes tag, htake, hq]
    generalize roundDiv (f.pos * r.fadeOutLen) f.len = q at hentry
    refine ⟨fun hlen hlater => ?_, fun hlen hearlier hlt => ?_, fun hends => ?_⟩
    · rw [if_neg (by omega)] at hentry
      rw [State.requestFade_none hentry, ite_self, hrest']
    · rw [if_pos (.inr hearlier)] at hentry
      rw [State.requestFade_some hentry, State.enterFade_fades hlt, State.deck_onHearing]
      cases Config.storeEndTakesDrop with
      | true => rfl
      | false => exact congrArg Host.Outcome.next hrest'
    · have hle : r.fadeOutLen ≤ q := by omega
      rw [if_pos (hends.imp_right And.right)] at hentry
      rw [State.requestFade_some hentry, State.enterFade_ends hle]
      cases Config.storeEndTakesDrop with
      | true => rfl
      | false => exact congrArg Host.Outcome.next hrest'

end Sys2Proof.Machine
end


section
/-! Laws of binding and priming (R41, R42, R60, R62). -/

namespace Sys2Proof.Machine

variable {s t u : State} {d : DeckNo}

/-! ### Which record, which deck (R41, R42) -/

theorem State.earliestQueued_nil (s : State) : s.earliestQueued [] = s.records.find? fun r => r.state == .queued := by
  simp [State.earliestQueued]

theorem State.idleDeckNo_lowest (hd : (s.deck d).state = .idle) (hlow : ∀ e : DeckNo, e < d → (s.deck e).state ≠ .idle) :
    s.idleDeckNo = some d := by
  have hlow' (e : DeckNo) (he : e < d) : ((s.deck e).state == .idle) = false := beq_eq_false_iff_ne.mpr (hlow e he)
  have hd' : ((s.deck d).state == .idle) = true := beq_iff_eq.mpr hd
  unfold State.idleDeckNo allDecks
  match d with
  | 0 => simp [hd']
  | 1 => simp [hd', hlow' 0 (by decide)]
  | 2 => simp [hd', hlow' 0 (by decide), hlow' 1 (by decide)]
  | 3 => simp [hd', hlow' 0 (by decide), hlow' 1 (by decide), hlow' 2 (by decide)]

theorem State.idleDeckNo_none (h : ∀ e : DeckNo, (s.deck e).state ≠ .idle) : s.idleDeckNo = none := by
  unfold State.idleDeckNo
  rw [List.find?_eq_none]
  intro e _ he
  exact h e (beq_iff_eq.mp he)

theorem State.before_iff (s : State) (a b : Nat) :
    s.before a b = true ↔ b ∈ ((s.records.dropWhile fun u => u.tag != a).drop 1).map (·.tag) := by
  unfold State.before
  rw [List.any_eq_true, List.mem_map]
  simp only [beq_iff_eq]

/-! ### What a binding leaves (R41, R60) -/

theorem State.deck_bindRecord_self (s : State) (r : CueRecord) (sn : Snapshot) (d : DeckNo) :
    (s.bindRecord r sn d).deck d = (s.deck d).bindTo r sn := by
  unfold State.bindRecord
  rw [State.deck_congr (State.emit_decks _ _), State.deck_congr (State.modRecord_decks _ _ _)]
  exact s.deck_setDeck_self d _

theorem State.deck_bindRecord_ne (s : State) (r : CueRecord) (sn : Snapshot) {d e : DeckNo} (h : d ≠ e) :
    (s.bindRecord r sn d).deck e = s.deck e := by
  unfold State.bindRecord
  rw [State.deck_congr (State.emit_decks _ _), State.deck_congr (State.modRecord_decks _ _ _)]
  exact s.deck_setDeck_ne d e _ h

theorem State.bindRecord_records (s : State) (r : CueRecord) (sn : Snapshot) (d : DeckNo) : (s.bindRecord r sn d).records
    = s.records.map fun u => if u.tag = r.tag then { u with state := .bound, deck := some d } else u := rfl

theorem State.bindRecord_work (s : State) (r : CueRecord) (sn : Snapshot) (d : DeckNo) : (s.bindRecord r sn d).work
    = s.work ++ if r.triggered then [.start r.tag r.shadowStart false true] else [] := rfl

theorem State.bindRecord_reader (s : State) (r : CueRecord) (sn : Snapshot) (d : DeckNo) :
    (s.bindRecord r sn d).reader = s.reader := by
  simp [State.bindRecord, State.modDeck]

theorem State.deck_reclaim_self (s : State) (v : CueRecord) (d : DeckNo) : (s.reclaim v d).deck d = (s.deck d).toIdle := by
  unfold State.reclaim State.idleDeck
  rw [State.deck_congr (State.modRecord_decks _ _ _), State.deck_congr (State.setTimer_decks _ _ _)]
  exact State.deck_setDeck_self _ d _

theorem State.deck_reclaim_ne (s : State) (v : CueRecord) {d e : DeckNo} (h : d ≠ e) : (s.reclaim v d).deck e = s.deck e := by
  unfold State.reclaim State.idleDeck
  rw [State.deck_congr (State.modRecord_decks _ _ _), State.deck_congr (State.setTimer_decks _ _ _)]
  exact State.deck_setDeck_ne _ d e _ h

theorem State.reclaim_parts (s : State) (v : CueRecord) (d : DeckNo) :
    (s.reclaim v d).records = (s.records.map fun u => if u.tag = v.tag then { u with state := .queued, deck := none } else u)
      ∧ (s.reclaim v d).work = s.work ∧ (s.reclaim v d).reader.flight
        = s.reader.flight.map fun q => if q.ofDeck d = true then { q with abandoned := true } else q := by
  simp [State.reclaim, State.idleDeck, State.modDeck, State.abandonDeckRead]

theorem State.bind_once (h : s.bindOnce [] = some t) : s.bind = t.emit [.bind] := by simp only [State.bind, h]

theorem State.bind_none (h : s.bindOnce [] = none) : s.bind = s := by simp only [State.bind, h]

/-! ### Priming complete (R62) -/

theorem Deck.primed_iff (x : Deck) : x.primed = true ↔ x.state = .priming ∧ (∀ i : Fin 16, (x.ring[i]).isInFlight = false)
    ∧ (12 ≤ x.ring.toList.countP Slot.isFilled ∨ x.fetchLimit ≤ x.fetchPtr) := by
  have hany : x.ring.toList.any Slot.isInFlight = false ↔ ∀ i : Fin 16, (x.ring[i]).isInFlight = false := by
    rw [List.any_eq_false]
    constructor
    · exact fun h i => Bool.not_eq_true _ ▸ h _ (Vector.mem_toList_iff.mpr (Vector.getElem_mem i.isLt))
    · intro h y hy
      obtain ⟨i, hi, rfl⟩ := Vector.getElem_of_mem (Vector.mem_toList_iff.mp hy)
      rw [Bool.not_eq_true]
      exact h ⟨i, hi⟩
  unfold Deck.primed
  rw [Bool.and_eq_true, Bool.and_eq_true, Bool.or_eq_true, decide_eq_true_eq, decide_eq_true_eq, beq_iff_eq, Bool.not_eq_true', hany, and_assoc]

/-- Settles O30: what each binding does, and when none is made. -/
theorem bindingTakesTheLowestIdleDeck : Obligations.BindingTakesTheLowestIdleDeck := by
  refine ⟨fun s r sn hfind hsn => ⟨fun d hd hlow => ?_, fun v d hnone hlast hv hne => ⟨fun hbefore => ?_, fun hbefore => ?_⟩⟩,
    fun s hnot => ?_, fun s d tag hb => ⟨fun hstate hfull => ?_, fun hnot => ?_⟩⟩
  · have hqueued : s.earliestQueued [] = some r := s.earliestQueued_nil.trans hfind
    have honce : s.bindOnce [] = some (s.bindRecord r sn d) := by
      simp only [State.bindOnce, hqueued, hsn, State.idleDeckNo_lowest hd hlow]
    exact ⟨_, State.bind_once honce, s.deck_bindRecord_self r sn d, fun e he => s.deck_bindRecord_ne r sn he.symm, rfl, rfl⟩
  · have hqueued : s.earliestQueued [] = some r := s.earliestQueued_nil.trans hfind
    have hlatest : s.latestBound = some v := hlast
    have honce : s.bindOnce [] = some ((s.reclaim v d).bindRecord r sn d) := by
      simp only [State.bindOnce, hqueued, hsn, State.idleDeckNo_none hnone, hlatest, hv, (s.before_iff _ _).mpr hbefore, if_true]
    obtain ⟨hrecords, hwork, hflight⟩ := s.reclaim_parts v d
    refine ⟨_, State.bind_once honce, ?_, fun e he => ?_, ?_, ?_, ?_⟩
    · rw [State.deck_bindRecord_self, State.deck_reclaim_self]
      rfl
    · rw [State.deck_bindRecord_ne _ _ _ he.symm, State.deck_reclaim_ne _ _ he.symm]
    · rw [State.bindRecord_records, hrecords, List.map_map]
      refine List.map_congr_left fun u _ => ?_
      dsimp only [Function.comp]
      by_cases hu : u.tag = r.tag
      · have huv : u.tag ≠ v.tag := fun h => hne (h.symm.trans hu)
        simp [hu, hne.symm]
      · by_cases hv : u.tag = v.tag
        · simp [hv, hne]
        · simp [hu, hv]
    · rw [State.bindRecord_reader, hflight]
    · rw [State.bindRecord_work, hwork]
  · have hqueued : s.earliestQueued [] = some r := s.earliestQueued_nil.trans hfind
    have hlatest : s.latestBound = some v := hlast
    have hnotbefore : s.before r.tag v.tag = false := by
      rw [Bool.eq_false_iff, ne_eq, s.before_iff]
      exact hbefore
    refine State.bind_none ?_
    simp only [State.bindOnce, hqueued, hsn, State.idleDeckNo_none hnone, hlatest, hv, hnotbefore, Bool.false_eq_true, if_false]
  · refine State.bind_none ?_
    obtain hqueued | ⟨hidle, hbound⟩ := hnot
    · have hnone : s.earliestQueued [] = none := by
        rw [s.earliestQueued_nil, List.find?_eq_none]
        exact fun r hr h => hqueued r hr (beq_iff_eq.mp h)
      simp only [State.bindOnce, hnone]
    · have hlatest : s.latestBound = none := by
        unfold State.latestBound
        rw [List.find?_eq_none]
        intro r hr h
        obtain ⟨hb, ha⟩ := hbound r (List.mem_reverse.mp hr)
        simp [hb, ha] at h
      simp only [State.bindOnce, State.idleDeckNo_none hidle, hlatest]
      split
      · rfl
      · split <;> rfl
  · have hprimed := (Deck.primed_iff (s.deck d)).mpr ⟨hstate, hfull⟩
    conv_lhs => simp only [State.judgePrimed, hprimed, hb]
    rfl
  · have hprimed : (s.deck d).primed = false := by
      rw [Bool.eq_false_iff, ne_eq, Deck.primed_iff]
      rintro ⟨hstate, hfull⟩
      exact hnot.elim (fun h => h hstate) fun h => h hfull
    simp only [State.judgePrimed, hprimed]

end Sys2Proof.Machine
end


section
/-! Laws of frames that are not handed (R153 to R157): what a command that finishes at rest answers. -/

namespace Sys2Proof.Machine

variable {s t u : State} {d : DeckNo}

/-! ### States that stay at rest -/

/-- The grants depend on the reader and on what the decks want alone. -/
theorem State.AtRest.congr (h : s.AtRest) (hwork : t.work = s.work) (hreader : t.reader = s.reader)
    (hdecks : ∀ d : DeckNo, { t.deck d with storeFlag := false } = { s.deck d with storeFlag := false }) : t.AtRest := by
  have hchosen (stands : Deck → Bool) (hs : ∀ x : Deck, stands { x with storeFlag := false } = stands x) :
      t.chosen stands = s.chosen stands := by
    have hdeck (d : DeckNo) : (stands (t.deck d) && (t.deck d).freeSlot.isSome) = (stands (s.deck d) && (s.deck d).freeSlot.isSome) := by
      have hfree (x : Deck) : x.freeSlot = Deck.freeSlot { x with storeFlag := false } := rfl
      rw [← hs (t.deck d), ← hs (s.deck d), hfree (t.deck d), hfree (s.deck d), hdecks d]
    unfold State.chosen
    rw [hreader]
    simp only [hdeck]
  obtain ⟨hw, hgrant⟩ := h
  refine ⟨hwork.trans hw, ?_⟩
  unfold State.NoGrant at hgrant ⊢
  rw [hreader, hchosen Deck.urgent fun _ => rfl, hchosen Deck.fills fun _ => rfl]
  exact hgrant

theorem State.AtRest.of_decks (h : s.AtRest) (hwork : t.work = s.work) (hreader : t.reader = s.reader) (hdecks : t.decks = s.decks) :
    t.AtRest := h.congr hwork hreader fun d => by rw [State.deck_congr hdecks]

theorem State.AtRest.heard (h : s.AtRest) (k : Header) {act : State → State} (hact : ∀ u : State, u.AtRest → (act u).AtRest) :
    (s.heard k act).AtRest := by
  have hframe : (s.takeFrame k act).AtRest := by
    unfold State.takeFrame
    split
    · exact h.of_decks rfl rfl rfl
    · exact hact _ (h.of_decks rfl rfl rfl)
  unfold State.heard
  split
  · exact hframe
  · exact hframe
  · exact h.of_decks rfl rfl rfl
  · exact h
  · exact h

theorem State.AtRest.addressed (h : s.AtRest) (k : Header) {act : State → State} (hact : (act s).AtRest) :
    (s.addressed k act).AtRest := by
  unfold State.addressed
  split
  · split
    · exact hact
    · exact h.of_decks rfl rfl rfl
  · exact h

theorem State.AtRest.hand (h : s.AtRest) (n : Notice) : (s.hand n).AtRest := by
  rw [State.hand_frame]
  exact h.of_decks rfl rfl rfl

theorem State.AtRest.monitorWindowAt (h : s.AtRest) : s.monitorWindowAt.AtRest := by
  cases hfull : s.monitor.full with
  | false => rw [State.monitorWindowAt_eq_self hfull]; exact h
  | true =>
    rw [State.monitorWindowAt_full hfull, State.handAll_frame]
    exact h.of_decks rfl rfl rfl

theorem State.AtRest.clearLatched (h : s.AtRest) : s.clearLatched.AtRest := by
  refine h.congr ?_ ?_ fun d => ?_
  · rw [State.clearLatched_eq]
  · rw [State.clearLatched_eq]
  · rw [State.deck_clearLatched]

theorem State.AtRest.partnerTaken (h : s.AtRest) (q : Station) : (s.partnerTaken q).AtRest := by
  unfold State.partnerTaken
  split
  · split
    · exact h
    · split
      · exact (h.hand .taken).of_decks rfl rfl rfl
      · exact h.of_decks rfl rfl rfl
  · unfold State.partnerIsLive
    split
    · exact h.of_decks rfl rfl rfl
    · exact h

theorem State.AtRest.tableTaken (h : s.AtRest) (q : Station) : (s.tableTaken q).AtRest := by
  have hrole : (s.modPeer q fun p => { p with role := some .live }).AtRest := h.of_decks rfl rfl rfl
  unfold State.tableTaken
  dsimp only
  split
  · exact hrole.partnerTaken q
  · exact hrole

/-! ### A notice's own command (R155) -/

/-- A notice's command answers what its hearing leaves, carried out to the end. -/
theorem exec_command (hrun : s.phase = .running) (h : s.AtRest) (k : Header) (n : Notice) :
    exec (n.command k) s = .next (s.hearNotice k n).finish := by
  cases n with
  | take => exact exec_take hrun k
  | taken =>
    have hrest : (s.hearTaken k).AtRest := h.heard k fun u hu => hu.tableTaken _
    exact (exec_peerTaken hrun k).trans (congrArg _ (State.finish_atRest hrest).symm)
  | fault f => exact exec_peerFault hrun k f
  | start f => exact exec_peerStart hrun k f
  | segue f => exact exec_peerSegue hrun k f
  | finish f => exact exec_peerEnd hrun k f
  | go g => exact exec_go hrun k g
  | level f =>
    have hrest : (s.hearLevel k f).AtRest := h.heard k fun u hu => hu.addressed k (hu.of_decks rfl rfl rfl)
    exact (exec_level hrun k f).trans (congrArg _ (State.finish_atRest hrest).symm)
  | duck f =>
    have hrest : (s.hearDuck k f).AtRest := h.heard k fun u hu => hu.of_decks rfl rfl rfl
    exact (exec_peerDuck hrun k f).trans (congrArg _ (State.finish_atRest hrest).symm)
  | clearFaults =>
    have hrest : (s.hearClearFaults k).AtRest :=
      h.heard k fun u hu => hu.addressed k (hu.monitorWindowAt.clearLatched.of_decks rfl rfl rfl)
    exact (exec_clearFaults hrun k).trans (congrArg _ (State.finish_atRest hrest).symm)
  | load f => exact exec_load hrun k f
  | drop t => exact exec_drop hrun k t
  | clear => exact exec_clear hrun k
  | declareBreak f => exact exec_declareBreak hrun k f
  | status f => exact exec_peerStatus hrun k f
  | asrun f =>
    have hrest : (s.hearAsrun k).AtRest := h.heard k fun u hu => hu
    exact (exec_peerAsrun hrun k f).trans (congrArg _ (State.finish_atRest hrest).symm)

theorem State.hearNotice_heard (s : State) (k : Header) (n : Notice) : ∃ act, s.hearNotice k n = s.heard k act := by
  cases n <;> exact ⟨_, rfl⟩

/-- A well-formed frame is heard, whatever its notice then does (R153). -/
theorem State.hearBits_wellFormed {bits : List BusBit} {f : Frame} (h : readFrame bits = .wellFormed f) (s : State) :
    ∃ act, s.hearBits bits = s.heard f.header act := by
  cases hn : readNotice f.kind.toNat f.payload with
  | none => exact ⟨fun s => s, by simp only [State.hearBits, h, hn]⟩
  | some n =>
    obtain ⟨act, hact⟩ := s.hearNotice_heard f.header n
    exact ⟨act, by simp only [State.hearBits, h, hn, hact]⟩

theorem State.hearBits_discarded {bits : List BusBit} (h : ∀ f, readFrame bits ≠ .wellFormed f) (s : State) :
    s.hearBits bits = s.discardFrame := by
  unfold State.hearBits
  cases hf : readFrame bits with
  | wellFormed f => exact absurd hf (h f)
  | _ => rfl

/-- Settles O50: the bits that a check discards, and the frames by what they carry. -/
theorem discardedFramesChangeOnlyTheLine : Obligations.DiscardedFramesChangeOnlyTheLine := by
  intro s bits hrun hrest
  have hanswer {x : State} (hx : s.hearBits bits = x) (hr : x.AtRest) : exec (.frameNotHanded bits) s = .next x := by
    rw [exec_frameNotHanded hrun, hx, State.finish_atRest hr]
  refine ⟨fun hline hbad => hanswer ?_ (hrest.withBus _), fun hline f hf hown => hanswer ?_ (hrest.withBus _), fun f n hf hn => ?_,
    fun hline f hf hn hsender => hanswer ?_ (hrest.onHearing f.header), fun hline f hf => hanswer ?_ (hrest.withBus _),
    fun hline => hanswer ?_ hrest⟩
  · rw [State.hearBits_discarded hbad]
    obtain (h | h) | h := hline <;> simp only [State.discardFrame, h] <;> rfl
  · obtain ⟨act, hact⟩ := State.hearBits_wellFormed hf s
    exact hact.trans (State.heard_own hline hown act)
  · rw [exec_command hrun hrest, exec_frameNotHanded hrun]
    simp only [State.hearBits, hf, hn]
  · have hself : s.hearBits bits = s.heard f.header fun s => s := by simp only [State.hearBits, hf, hn]
    exact hself.trans (State.Hears.heard ⟨hrun, hline, hsender⟩ fun s => s)
  · obtain ⟨act, hact⟩ := State.hearBits_wellFormed hf s
    exact hact.trans (State.heard_waitIdle hline f.header act)
  · cases hf : readFrame bits with
    | wellFormed f =>
      obtain ⟨act, hact⟩ := State.hearBits_wellFormed hf s
      exact hact.trans (State.heard_driving hline f.header act)
    | _ =>
      rw [State.hearBits_discarded (by simp [hf])]
      obtain h | h := hline <;> simp only [State.discardFrame, h]

end Sys2Proof.Machine
end


section
/-! Laws of the transmit queue and of the frames sent (R144 to R152, R192, R194). -/

namespace Sys2Proof.Machine

variable {s t u : State} {d : DeckNo}

/-! ### The queue's order (R150) -/

theorem insertQueued_eq (q : Queued) (l : List Queued) : insertQueued q l
    = l.takeWhile (fun x => decide (x.notice.cls ≤ q.notice.cls)) ++ q :: l.dropWhile (fun x => decide (x.notice.cls ≤ q.notice.cls)) := by
  induction l with
  | nil => rfl
  | cons x xs ih =>
    unfold insertQueued
    split
    · rename_i h
      simp [Nat.not_le.mpr h]
    · rename_i h
      simp [Nat.not_lt.mp h, ih]

theorem insertQueued_perm (q : Queued) (l : List Queued) : (insertQueued q l).Perm (q :: l) := by
  rw [insertQueued_eq]
  refine List.perm_middle.trans ?_
  rw [List.takeWhile_append_dropWhile]

theorem sublist_insertQueued (q : Queued) (l : List Queued) : List.Sublist l (insertQueued q l) := by
  rw [insertQueued_eq]
  conv_lhs => rw [← List.takeWhile_append_dropWhile (p := fun x => decide (x.notice.cls ≤ q.notice.cls)) (l := l)]
  exact List.Sublist.append_left (List.sublist_cons_self _ _) _

theorem mem_insertQueued {q x : Queued} {l : List Queued} : x ∈ insertQueued q l ↔ x = q ∨ x ∈ l := by
  rw [(insertQueued_perm q l).mem_iff, List.mem_cons]

/-! ### The as-run log's offer (R192) -/

/-- The log's oldest record offered. -/
def State.offered (s : State) (r : AsRun) : State :=
  { s with bus := s.bus.join (.asrun (asRunFields r)), log := { s.log with offer := some r.sequence } }

theorem State.judgeOffer_cases (s : State) : s.judgeOffer = s
    ∨ ∃ r, s.log.records.head? = some r ∧ s.bus.queue.length < 4 ∧ s.judgeOffer = s.offered r := by
  unfold State.judgeOffer
  split
  · rename_i r l hrecords hoffer
    split
    · rename_i hlt
      exact .inr ⟨r, by rw [hrecords]; rfl, hlt, rfl⟩
    · exact .inl rfl
  · exact .inl rfl

/-- The notice in flight of a line that sends. -/
theorem CueBus.sending_eq {b : CueBus} {q : Queued} (hline : b.line = .sending) (hflight : b.flight = some q.order)
    (hfind : b.queue.find? (fun x => x.order == q.order) = some q) : b.sending = some q := by
  rw [CueBus.sending, if_pos hline, CueBus.flown, hflight]
  exact hfind

/-- The bus after a complete frame: the notice gone, the error run over, the line waiting (R149). -/
def CueBus.completed (b : CueBus) (o : Nat) : CueBus :=
  { b with queue := b.queue.filter fun x => x.order != o, flight := none, held := none, line := .waitIdle, recessive := 0, errorRun := 0 }

/-- A complete ASRUN's record has left the log (R194). -/
def AsRunLog.sent (l : AsRunLog) (asrun : Bool) : AsRunLog := if asrun then { l with records := l.records.drop 1, offer := none } else l

theorem State.frameCompleteAt_eq {q : Queued} (h : s.bus.sending = some q) (hheld : s.bus.held = none) : s.frameCompleteAt
    = State.judgeOffer { s with bus := s.bus.completed q.order, log := s.log.sent q.notice.isAsrun } := by
  have hleave : { s.bus.leave q.order with line := .waitIdle, recessive := 0, errorRun := 0 } = s.bus.completed q.order := by
    simp only [CueBus.leave, hheld]
    rfl
  simp only [State.frameCompleteAt, h, State.modBus, hleave, AsRunLog.sent]
  cases q.notice.isAsrun <;> rfl

/-- Settles O49: the notice gone, then the log's judgement of its offer. -/
theorem completeFramesLeaveTheQueue : Obligations.CompleteFramesLeaveTheQueue := by
  intro s q hrun hline hflight hfind hheld
  have hexec : exec .frameComplete s = .next s.frameCompleteAt := exec_frameComplete hrun
  rw [State.frameCompleteAt_eq (CueBus.sending_eq hline hflight hfind) hheld] at hexec
  refine ⟨_, hexec, ?_⟩
  have hkept : q.notice.isAsrun = false → (s.log.sent q.notice.isAsrun).records = s.log.records := fun h => by rw [h]; rfl
  have hsent : q.notice.isAsrun = true → (s.log.sent q.notice.isAsrun).records = s.log.records.drop 1 := fun h => by rw [h]; rfl
  obtain heq | ⟨r, hr, hlt, heq⟩ := State.judgeOffer_cases
    { s with bus := s.bus.completed q.order, log := s.log.sent q.notice.isAsrun }
  · rw [heq]
    exact ⟨rfl, rfl, rfl, rfl, rfl, .inl rfl, hkept, hsent, rfl⟩
  · rw [heq]
    exact ⟨rfl, rfl, rfl, rfl, rfl, .inr ⟨hlt, r, hr, rfl, rfl, insertQueued_perm _ _, sublist_insertQueued _ _⟩, hkept, hsent, rfl⟩

/-! ### Bit errors (R146 to R148) -/

/-- The bus after an attempt whose notice keeps its place (R146, R151). -/
def CueBus.attemptOver (b : CueBus) : CueBus :=
  { b with
    line := .waitIdle, recessive := 0, flight := none, held := none
    queue := match b.held with
      | none => b.queue
      | some f => replaceStatus f b.queue }

theorem State.endFlag_flagging (h : s.bus.line = .flagging) :
    s.endFlag = (s.modBus fun b => { b with line := .waitIdle, recessive := 0 }).endFlown.judgeQuiet := by
  simp only [State.endFlag, h]

/-- The flag has ended on a notice with fewer than four bit errors. -/
theorem State.endFlag_keeps {q : Queued} (hline : s.bus.line = .flagging) (hflight : s.bus.flight = some q.order)
    (hfind : s.bus.queue.find? (fun x => x.order == q.order) = some q) (hlt : q.errors < 4) :
    s.endFlag = State.judgeQuiet { s with bus := s.bus.attemptOver } := by
  rw [State.endFlag_flagging hline]
  have hflown : (s.modBus fun b => { b with line := .waitIdle, recessive := 0 }).bus.flown = some q := by
    have hbus : (s.modBus fun b => { b with line := .waitIdle, recessive := 0 }).bus.flight = some q.order := hflight
    rw [CueBus.flown, hbus]
    exact hfind
  have hend : (s.modBus fun b => { b with line := .waitIdle, recessive := 0 }).endFlown = { s with bus := s.bus.attemptOver } := by
    simp only [State.endFlown, hflown, if_neg (Nat.not_le.mpr hlt)]
    rfl
  rw [hend]

/-- The bus after the drop of a notice with its fourth bit error (R147, R151). -/
def CueBus.dropped (b : CueBus) (o : Nat) : CueBus :=
  { ({ b with line := .waitIdle, recessive := 0 } : CueBus).leave o with busError := true }

/-- The log's offer after the drop: an ASRUN dropped is offered again (R195). -/
def AsRunLog.toldDropped (l : AsRunLog) (asrun : Bool) : AsRunLog := if asrun then { l with offer := none } else l

theorem State.endFlag_drops {q : Queued} (hline : s.bus.line = .flagging) (hflight : s.bus.flight = some q.order)
    (hfind : s.bus.queue.find? (fun x => x.order == q.order) = some q) (hle : 4 ≤ q.errors) :
    s.endFlag = (State.judgeOffer { s with bus := s.bus.dropped q.order, log := s.log.toldDropped q.notice.isAsrun }).judgeQuiet := by
  rw [State.endFlag_flagging hline]
  have hflown : (s.modBus fun b => { b with line := .waitIdle, recessive := 0 }).bus.flown = some q := by
    have hbus : (s.modBus fun b => { b with line := .waitIdle, recessive := 0 }).bus.flight = some q.order := hflight
    rw [CueBus.flown, hbus]
    exact hfind
  have hend : (s.modBus fun b => { b with line := .waitIdle, recessive := 0 }).endFlown
      = State.judgeOffer { s with bus := s.bus.dropped q.order, log := s.log.toldDropped q.notice.isAsrun } := by
    simp only [State.endFlown, hflown, if_pos hle, State.toldDropped, AsRunLog.toldDropped]
    cases q.notice.isAsrun <;> rfl
  rw [hend]

/-- A queue from which one of at most 8 notices has left has room. -/
theorem length_filter_order_lt {l : List Queued} {q : Queued} (hmem : q ∈ l) (hle : l.length ≤ 8) :
    (l.filter fun x => x.order != q.order).length < 8 := by
  have hlt : (l.filter fun x => x.order != q.order).length < l.length := by
    rw [List.length_filter_lt_length_iff_exists]
    exact ⟨q, hmem, by simp⟩
  omega

theorem State.judgeQuiet_sixteen (h : s.bus.errorRun = 16) :
    s.judgeQuiet = (s.modBus fun b => { b with send := .quiet, busError := true }).setInterval .quiet 480000 := if_pos h

theorem State.judgeQuiet_fewer (h : s.bus.errorRun ≠ 16) : s.judgeQuiet = s := if_neg h

/-- A notice dropped from a queue of at most 8: it is gone, every other stays in its order, a held STATUS has joined (R147, R151). -/
structure CueBus.DropsTo (b c : CueBus) (o : Nat) : Prop where
  flags : c.line = .waitIdle ∧ c.recessive = 0 ∧ c.flight = none ∧ c.held = none
  gone : ∀ x ∈ c.queue, x.order ≠ o ∨ b.handed ≤ x.order
  kept : b.queue.length ≤ 8 → List.Sublist (b.queue.filter fun x => x.order != o) c.queue
  held : ∀ f, b.held = some f → b.queue.length ≤ 8 → ∃ x ∈ c.queue, x.notice = .status f ∧ x.errors = 0
  handed : b.handed ≤ c.handed
  send : c.send = b.send
  errorRun : c.errorRun = b.errorRun

/-- A notice that joins keeps what a drop left. -/
theorem CueBus.DropsTo.join {b c : CueBus} {o : Nat} (h : b.DropsTo c o) (n : Notice) : b.DropsTo (c.join n) o where
  flags := h.flags
  gone := fun x hx => by
    obtain rfl | hx := mem_insertQueued.mp hx
    · exact .inr h.handed
    · exact h.gone x hx
  kept := fun hle => (h.kept hle).trans (sublist_insertQueued _ _)
  held := fun f hf hle => by
    obtain ⟨x, hx, hn⟩ := h.held f hf hle
    exact ⟨x, mem_insertQueued.mpr (.inr hx), hn⟩
  handed := Nat.le_succ_of_le h.handed
  send := h.send
  errorRun := h.errorRun

/-- The bus with a notice taken out and nothing in flight or held. -/
def CueBus.without (b : CueBus) (o : Nat) : CueBus :=
  { b with queue := b.queue.filter fun x => x.order != o, line := .waitIdle, recessive := 0, flight := none, held := none }

theorem CueBus.without_dropsTo (b : CueBus) (o : Nat) (hheld : b.held = none ∨ ¬ b.queue.length ≤ 8) : b.DropsTo (b.without o) o where
  flags := ⟨rfl, rfl, rfl, rfl⟩
  gone := fun x hx => .inl (by simpa using (List.mem_filter.mp hx).2)
  kept := fun _ => List.Sublist.refl _
  held := fun f hf hle => by
    obtain hnone | hlong := hheld
    · exact nomatch hnone.symm.trans hf
    · exact absurd hle hlong
  handed := Nat.le_refl _
  send := rfl
  errorRun := rfl

theorem CueBus.DropsTo.withErrors {b c : CueBus} {o : Nat} (h : b.DropsTo c o) (e x : Bool) :
    b.DropsTo { c with busError := e, txDiscard := x } o := ⟨h.flags, h.gone, h.kept, h.held, h.handed, h.send, h.errorRun⟩

/-- A notice handed to a queue that is too long: what a drop left stays gone. -/
theorem CueBus.DropsTo.handPlain {b c : CueBus} {o : Nat} (h : b.DropsTo c o) (hlong : ¬ b.queue.length ≤ 8)
    (n : Notice) : b.DropsTo (c.handPlain n).1 o := by
  unfold CueBus.handPlain
  split
  · exact h.join n
  · split
    · exact h.withErrors _ true
    · rename_i q _
      have hevict : b.DropsTo { c with queue := c.queue.filter fun x => x.order != q.order } o :=
        ⟨h.flags, fun x hx => h.gone x (List.mem_of_mem_filter hx), fun hle => absurd hle hlong, fun f hf hle => absurd hle hlong,
          h.handed, h.send, h.errorRun⟩
      split
      · dsimp only
        split
        · exact hevict.join n
        · exact (hevict.join n).withErrors _ true
      · exact h.withErrors _ true

theorem CueBus.dropped_none {b : CueBus} (h : b.held = none) (o : Nat) : b.dropped o = { b.without o with busError := true } := by
  simp only [CueBus.dropped, CueBus.leave, h]
  rfl

theorem CueBus.dropped_some {b : CueBus} {f : StatusFields} (h : b.held = some f) (o : Nat) :
    b.dropped o = { ((b.without o).handPlain (.status f)).1 with busError := true } := by
  simp only [CueBus.dropped, CueBus.leave, h]
  rfl

theorem CueBus.dropped_dropsTo {b : CueBus} {q : Queued} (hmem : q ∈ b.queue) : b.DropsTo (b.dropped q.order) q.order := by
  cases hheld : b.held with
  | none =>
    rw [CueBus.dropped_none hheld]
    exact (b.without_dropsTo q.order (.inl hheld)).withErrors true _
  | some f =>
    rw [CueBus.dropped_some hheld]
    by_cases hlong : b.queue.length ≤ 8
    · have hroom : (b.without q.order).queue.length < 8 := length_filter_order_lt hmem hlong
      have hjoin : ((b.without q.order).handPlain (.status f)).1 = (b.without q.order).join (.status f) := by
        rw [CueBus.handPlain, if_pos hroom]
      rw [hjoin]
      exact {
        flags := ⟨rfl, rfl, rfl, rfl⟩
        gone := fun x hx => by
          obtain rfl | hx := mem_insertQueued.mp hx
          · exact .inr (Nat.le_refl _)
          · exact .inl (by simpa using (List.mem_filter.mp hx).2)
        kept := fun _ => sublist_insertQueued _ _
        held := fun k hk _ => ⟨⟨.status f, b.handed, 0⟩, mem_insertQueued.mpr (.inl rfl),
          by rw [Option.some.inj (hheld.symm.trans hk)], rfl⟩
        handed := Nat.le_succ _
        send := rfl
        errorRun := rfl }
    · exact ((b.without_dropsTo q.order (.inr hlong)).handPlain hlong (.status f)).withErrors true _

/-- Settles O48: the error counted, the flag's end by the count, the two expiries. -/
theorem bitErrorsAreCounted : Obligations.BitErrorsAreCounted := by
  refine ⟨fun s q hrun hline hflight hfind => ?_, fun s q hline hflight hfind => ⟨fun hlt => ?_, fun hle => ?_⟩, fun s hline => ?_,
    fun s hrun => ⟨fun hdue hsend => ?_, fun hdue hsend => ?_⟩⟩
  · rw [exec_bitError hrun]
    simp only [State.bitErrorAt, CueBus.sending_eq hline hflight hfind]
    rfl
  · rw [State.endFlag_keeps hline hflight hfind hlt]
    exact ⟨fun h => State.judgeQuiet_fewer h, fun h => State.judgeQuiet_sixteen h⟩
  · have hdrop := CueBus.dropped_dropsTo (List.mem_of_find?_eq_some hfind)
    rw [State.endFlag_drops hline hflight hfind hle]
    have hlog : (s.log.toldDropped q.notice.isAsrun).records = s.log.records := by
      unfold AsRunLog.toldDropped
      split <;> rfl
    have hjudged : ∃ c l, State.judgeOffer { s with bus := s.bus.dropped q.order, log := s.log.toldDropped q.notice.isAsrun }
        = { s with bus := c, log := l } ∧ s.bus.DropsTo c q.order ∧ c.busError = true ∧ l.records = s.log.records := by
      obtain heq | ⟨r, -, -, heq⟩ := State.judgeOffer_cases
        { s with bus := s.bus.dropped q.order, log := s.log.toldDropped q.notice.isAsrun }
      · exact ⟨_, _, heq, hdrop, rfl, hlog⟩
      · exact ⟨_, _, heq, hdrop.join _, rfl, hlog⟩
    obtain ⟨c, l, heq, hc, herror, hl⟩ := hjudged
    obtain ⟨hwait, hrecessive, hnoflight, hnoheld⟩ := hc.flags
    rw [heq]
    by_cases hsixteen : s.bus.errorRun = 16
    · rw [State.judgeQuiet_sixteen (hc.errorRun.trans hsixteen)]
      exact ⟨rfl, hwait, hrecessive, hnoflight, hnoheld, hc.gone, hc.kept, hc.held, (if_pos hsixteen).symm,
        fun _ => List.mem_append_right _ (List.mem_singleton_self _), hl, rfl, rfl⟩
    · rw [State.judgeQuiet_fewer (fun h => hsixteen (hc.errorRun.symm.trans h))]
      exact ⟨herror, hwait, hrecessive, hnoflight, hnoheld, hc.gone, hc.kept, hc.held, hc.send.trans (if_neg hsixteen).symm,
        fun h => absurd h hsixteen, hl, rfl, rfl⟩
  · simp only [State.sentBits, hline]
    rfl
  · rw [exec_quietExpiry hrun, if_pos hdue]
    simp only [State.quietExpired, State.modBus, State.cancelInterval, hsend, if_true]
  · rw [exec_startUpListenExpiry hrun, if_pos hdue]
    simp only [State.startUpListenFired, State.modBus, State.cancelInterval, hsend, if_true]

end Sys2Proof.Machine
end


section
/-! Laws of the STATUS beacon (R139, R150 to R152, R175, R176, R203). -/

namespace Sys2Proof.Machine

variable {s t u : State} {d : DeckNo}

/-! ### The guards that are due first (R139) -/

theorem mem_insertByLateness {now : Nat} {x y : AirExpiry} {l : List AirExpiry} : y ∈ insertByLateness now x l ↔ y = x ∨ y ∈ l := by
  induction l with
  | nil => simp [insertByLateness]
  | cons z l ih =>
    unfold insertByLateness
    split
    · simp
    · simp only [List.mem_cons, ih]
      tauto

theorem State.mem_dueAir {y : AirExpiry} (h : y ∈ s.dueAir) : y ∈ s.airExpiries ∧ isDue y.target s.now = true := by
  have hfold (l m : List AirExpiry) (hy : y ∈ l.foldl (fun m x => insertByLateness s.now x m) m) : y ∈ l ∨ y ∈ m := by
    induction l generalizing m with
    | nil => exact .inr hy
    | cons x l ih =>
      obtain h | h := ih _ hy
      · exact .inl (List.mem_cons_of_mem _ h)
      · obtain rfl | h := mem_insertByLateness.mp h
        · exact .inl (List.mem_cons_self ..)
        · exact .inr h
  obtain h | h := hfold _ _ h
  · exact List.mem_filter.mp h
  · exact absurd h List.not_mem_nil

theorem upTo_nil {α : Type} (p : α → Bool) {l : List α} (h : ∀ x, x ∉ l) : upTo p l = [] := by
  rw [List.eq_nil_iff_forall_not_mem.mpr h]
  rfl

theorem State.guardsFirst_quiet (h : ∀ x ∈ s.airExpiries, x.handle.ofRecord = false → isDue x.target s.now = false) :
    s.guardsFirst = s := by
  refine State.guardsFirst_eq_self fun e => upTo_nil _ fun x hx => ?_
  obtain ⟨hdue, howner⟩ := List.mem_filter.mp hx
  obtain ⟨hmem, hisdue⟩ := State.mem_dueAir hdue
  have hbreak : x.handle.ofRecord = false := beq_iff_eq.mp howner
  exact absurd hisdue (by rw [h x hmem hbreak]; decide)

/-! ### The entry that is reported (R203) -/

theorem reportOrder_eq (pos : EntryNo) : reportOrder pos = (List.finRange 8).map fun i => pos + 1 + i := by
  revert pos
  decide

/-- The first RUNNING entry after the report position, counting upward and wrapping. -/
theorem State.reportEntry_some {e : EntryNo} (h : (s.entry e).state = .running)
    (hfirst : ∀ u : EntryNo, (s.entry u).state = .running → (e - (s.breaks.reportPos + 1)).val ≤ (u - (s.breaks.reportPos + 1)).val) :
    s.reportEntry = some e := by
  unfold State.reportEntry
  rw [reportOrder_eq, List.find?_map, Option.map_eq_some_iff]
  refine ⟨e - (s.breaks.reportPos + 1), List.find?_eq_some_iff_getElem.mpr ⟨?_, (e - (s.breaks.reportPos + 1)).val, ?_, ?_, ?_⟩, ?_⟩
  · simp [h]
  · simp
  · simp
  · intro j hj
    simp only [List.getElem_finRange, Function.comp, Bool.not_eq_true', beq_eq_false_iff_ne]
    intro hrun
    have hle := hfirst _ hrun
    simp at hle
    omega
  · simp

theorem State.reportEntry_none (h : ∀ e : EntryNo, (s.entry e).state ≠ .running) : s.reportEntry = none := by
  unfold State.reportEntry
  rw [List.find?_eq_none]
  intro e _ he
  exact h e (beq_iff_eq.mp he)

/-! ### A STATUS handed to the queue (R150 to R152) -/

theorem State.bus_hand_kept {n : Notice} (h : (s.bus.handed? n).2 = false) : (s.hand n).bus = (s.bus.handed? n).1 := by
  rw [State.hand_cases, h]
  rfl

/-- What the log does when its ASRUN is evicted adds a notice at most (R195). -/
theorem State.bus_hand_evicted {n : Notice} (h : (s.bus.handed? n).2 = true) :
    (∀ x ∈ (s.bus.handed? n).1.queue, x ∈ (s.hand n).bus.queue) ∧ (s.hand n).bus.txDiscard = (s.bus.handed? n).1.txDiscard := by
  rw [State.hand_cases, h, if_pos rfl, State.unoffer]
  obtain heq | ⟨r, -, -, heq⟩ := State.judgeOffer_cases
    { s with bus := (s.bus.handed? n).1, log := { s.log with offer := none } }
  · rw [heq]
    exact ⟨fun _ hx => hx, rfl⟩
  · rw [heq]
    exact ⟨fun _ hx => mem_insertQueued.mpr (.inr hx), rfl⟩

theorem CueBus.handed_status_new {b : CueBus} (h : ∀ q ∈ b.queue, q.notice.isStatus = false) (f : StatusFields) :
    b.handed? (.status f) = b.handPlain (.status f) := by
  have hnone : b.queue.find? (·.notice.isStatus) = none := by
    rw [List.find?_eq_none]
    exact fun q hq hs => absurd hs (by rw [h q hq]; decide)
  simp only [CueBus.handed?, CueBus.handStatus, hnone]

theorem CueBus.handed_status_flight {b : CueBus} {q : Queued} (h : b.queue.find? (·.notice.isStatus) = some q)
    (hflight : b.flight = some q.order) (f : StatusFields) : b.handed? (.status f) = ({ b with held := some f }, false) := by
  have hin : b.inFlight q = true := by rw [CueBus.inFlight, hflight, beq_self_eq_true]
  simp only [CueBus.handed?, CueBus.handStatus, h, hin, if_true]

theorem CueBus.handed_status_queued {b : CueBus} {q : Queued} (h : b.queue.find? (·.notice.isStatus) = some q)
    (hflight : b.flight ≠ some q.order) (f : StatusFields) :
    b.handed? (.status f) = ({ b with queue := replaceStatus f b.queue }, false) := by
  have hin : b.inFlight q = false := beq_eq_false_iff_ne.mpr hflight
  simp only [CueBus.handed?, CueBus.handStatus, h, hin, Bool.false_eq_true, if_false]

theorem CueBus.handPlain_room {b : CueBus} (h : b.queue.length < 8) (n : Notice) : b.handPlain n = (b.join n, false) := if_pos h

theorem CueBus.handPlain_discards {b : CueBus} (h : 8 ≤ b.queue.length) {n : Notice} (hlow : ∀ q, b.lowest = some q → q.notice.cls ≤ n.cls) :
    b.handPlain n = ({ b with txDiscard := true }, false) := by
  unfold CueBus.handPlain
  rw [if_neg (Nat.not_lt.mpr h)]
  cases hq : b.lowest with
  | none => rfl
  | some q => exact if_neg (Nat.not_lt.mpr (hlow q hq))

theorem CueBus.handPlain_evicts {b : CueBus} (h : 8 ≤ b.queue.length) {n : Notice} {q : Queued} (hq : b.lowest = some q)
    (hcls : n.cls < q.notice.cls) : ⟨n, b.handed, 0⟩ ∈ (b.handPlain n).1.queue
      ∧ (b.handPlain n).1.txDiscard = (b.txDiscard || !q.notice.isAsrun) ∧ (b.handPlain n).2 = q.notice.isAsrun := by
  unfold CueBus.handPlain
  rw [if_neg (Nat.not_lt.mpr h)]
  simp only [hq, if_pos hcls]
  cases q.notice.isAsrun with
  | true => exact ⟨mem_insertQueued.mpr (.inl rfl), (Bool.or_false _).symm, rfl⟩
  | false => exact ⟨mem_insertQueued.mpr (.inl rfl), (Bool.or_true _).symm, rfl⟩

/-! ### The beacon (R175, R176) -/

/-- The state in which the beacon is set again and the report position has moved. -/
def State.beaconSet (s : State) : State := (s.setInterval .beacon 12000).moveReport

theorem State.beaconFired_eq (s : State) : s.beaconFired = s.beaconSet.hand (.status s.statusNow) := rfl

theorem State.beaconSet_frame (s : State) : s.beaconSet = { s with
    intervals := (s.intervals.filter fun x => x.handle != .beacon) ++ [⟨.beacon, s.period + 12000⟩], breaks := s.moveReport.breaks } := by
  have hentry : (s.setInterval .beacon 12000).reportEntry = s.reportEntry := rfl
  simp only [State.beaconSet, State.moveReport, hentry]
  cases s.reportEntry <;> rfl

/-- Settles O51: the guards first, then the STATUS of the moment handed. -/
theorem beaconHandsAStatus : Obligations.BeaconHandsAStatus := by
  intro u hrun hdue
  refine ⟨State.guardsFirst_quiet, ?_⟩
  generalize hs : u.guardsFirst = s
  have hexec : exec .statusBeacon u = .next (s.beaconSet.hand (.status s.statusNow)) := by
    rw [exec_statusBeacon hrun, if_pos hdue, State.statusBeaconAt, hs, State.beaconFired_eq]
  have hframe := (s.beaconSet.hand_frame (.status s.statusNow)).trans (congrArg (fun x : State => x.withLine _) s.beaconSet_frame)
  have hbus : s.beaconSet.bus = s.bus := (congrArg State.bus s.beaconSet_frame).trans rfl
  have hbreaks : (s.beaconSet.hand (.status s.statusNow)).breaks = s.moveReport.breaks := (congrArg State.breaks hframe).trans rfl
  refine ⟨_, s.statusNow, hexec, rfl, rfl, rfl, rfl, rfl, rfl, rfl, rfl, rfl, rfl, fun hnone => ?_, fun e he hfirst => ?_,
    (congrArg State.intervals hframe).trans rfl, fun hnew => ?_, fun q hq => ?_, (congrArg State.decks hframe).trans rfl,
    (congrArg State.records hframe).trans rfl, (congrArg State.clock hframe).trans rfl, (congrArg State.peers hframe).trans rfl⟩
  · have hentry := State.reportEntry_none hnone
    refine ⟨by simp only [State.statusNow, hentry, Option.map_none], ?_⟩
    rw [hbreaks]
    simp only [State.moveReport, hentry]
  · have hentry := State.reportEntry_some he hfirst
    refine ⟨?_, by simp only [State.statusNow, hentry, Option.map_some]; rfl⟩
    rw [hbreaks]
    simp only [State.moveReport, hentry]
  · have hplain : s.beaconSet.bus.handed? (.status s.statusNow) = s.bus.handPlain (.status s.statusNow) := by
      rw [hbus, CueBus.handed_status_new hnew]
    refine ⟨fun hroom => ?_, fun hfull => ⟨fun hlow => ?_, fun q hq hcls => ?_⟩⟩
    · rw [CueBus.handPlain_room hroom] at hplain
      rw [State.bus_hand_kept (by rw [hplain]), hplain, CueBus.join, insertQueued_eq]
      rfl
    · rw [CueBus.handPlain_discards (n := .status s.statusNow) hfull hlow] at hplain
      rw [State.bus_hand_kept (by rw [hplain]), hplain]
    · obtain ⟨hmem, hdiscard, hevicted⟩ := CueBus.handPlain_evicts (n := .status s.statusNow) hfull hq hcls
      rw [← hplain] at hmem hdiscard hevicted
      cases hasrun : q.notice.isAsrun with
      | true =>
        obtain ⟨hkept, htx⟩ := State.bus_hand_evicted (hevicted.trans hasrun)
        exact ⟨⟨_, hkept _ hmem, rfl⟩, htx.trans (hdiscard.trans (by rw [hasrun]))⟩
      | false =>
        rw [State.bus_hand_kept (hevicted.trans hasrun)]
        exact ⟨⟨_, hmem, rfl⟩, hdiscard.trans (by rw [hasrun])⟩
  · refine ⟨fun hflight => ?_, fun hflight => ?_⟩
    · have hheld := CueBus.handed_status_flight hq hflight s.statusNow
      rw [← hbus] at hheld
      rw [State.bus_hand_kept (by rw [hheld]), hheld, hbus]
    · have hreplaced := CueBus.handed_status_queued hq hflight s.statusNow
      rw [← hbus] at hreplaced
      rw [State.bus_hand_kept (by rw [hreplaced]), hreplaced, hbus]
      exact ⟨rfl, rfl⟩

end Sys2Proof.Machine
end


section
/-! Laws of taking the air (R177, R178, R184, R185) and of the events that lead to it. -/

namespace Sys2Proof.Machine

variable {s t u : State} {d : DeckNo}

/-! ### What taking the air changes (R185) -/

/-- A state with another's bus, log and records. -/
def State.withOrder (u s : State) : State := { u with bus := s.bus, log := s.log, records := s.records }

theorem State.announceDucks_frame (s : State) (withdraw : Bool) : s.announceDucks withdraw = s.withLine (s.announceDucks withdraw) := by
  have hfold (l : List DeckNo) (x : State) : ∃ y : State, l.foldl (fun s d => match s.mix.requests[d] with
      | none => s
      | some q => s.hand (duckNotice q (if withdraw then 0 else q.depth))) x = x.withLine y := by
    induction l generalizing x with
    | nil => exact ⟨x, rfl⟩
    | cons e l ih =>
      rw [List.foldl_cons]
      cases x.mix.requests[e] with
      | none => exact ih x
      | some q =>
        obtain ⟨y, hy⟩ := ih (x.hand (duckNotice q (if withdraw then 0 else q.depth)))
        refine ⟨y, hy.trans ?_⟩
        rw [State.hand_frame]
        rfl
  obtain ⟨y, hy⟩ := hfold allDecks s
  have hdef : s.announceDucks withdraw = s.withLine y := hy
  rw [hdef]
  rfl

theorem State.announceItem_frame (s : State) (d : DeckNo) : s.announceItem d = s.withOrder (s.announceItem d) := by
  unfold State.announceItem
  dsimp only
  split
  · split
    · rfl
    · rw [State.hand_frame]
      rfl
  · rfl

theorem State.announceItems_frame (s : State) (l : List DeckNo) :
    l.foldl State.announceItem s = s.withOrder (l.foldl State.announceItem s) := by
  induction l generalizing s with
  | nil => rfl
  | cons e l ih =>
    rw [List.foldl_cons, ih]
    generalize List.foldl _ _ _ = y
    exact (congrArg (fun x : State => x.withOrder y) (s.announceItem_frame e)).trans rfl

/-- The engine's role, intervals, gate and monitors when it takes the air, before anything is handed. -/
def State.airTaken (s : State) : State :=
  { s with
    pair := { role := .live, yielding := false, closedAt := none }
    intervals := (s.intervals.filter fun x => x.handle != .listen).filter fun x => x.handle != .absentWatch
    mix := { s.mix with gate := s.mix.gate.openRequest }, monitor := s.monitorLive.monitor }

/-- The state before the set-aside marks are answered. -/
def State.airAnnounced (s : State) : State := allDecks.foldl State.announceItem ((s.airTaken.announceDucks false).announceTaken)

theorem State.takeAir_eq (s : State) : s.takeAir = s.airAnnounced.answerSetAside := by
  have htaken : ((((({ s with pair := { role := .live, yielding := false, closedAt := none } } : State).cancelInterval .listen).cancelInterval
      .absentWatch).modGate Gate.openRequest).monitorLive) = s.airTaken := by
    simp only [State.cancelInterval, State.modGate, State.monitorLive, State.modGroups, State.clearTimers, State.airTaken]
  unfold State.takeAir
  dsimp only
  rw [htaken]
  rfl

/-- What is handed and marked changes bus, log and records, and opens the TAKEN window. -/
theorem State.announced_frame (s : State) : ∃ x : State,
    allDecks.foldl State.announceItem ((s.announceDucks false).announceTaken) = (s.setInterval .takenWindow 48000).withOrder x := by
  refine ⟨allDecks.foldl State.announceItem ((s.announceDucks false).announceTaken), ?_⟩
  rw [State.announceItems_frame, State.announceTaken, State.hand_frame, State.announceDucks_frame]
  generalize List.foldl _ _ _ = y
  simp only [State.withLine, State.withOrder, State.setInterval, State.cancelInterval]

theorem State.takeAir_frame (s : State) : ∃ b l r w,
    s.takeAir = { s.airTaken.setInterval .takenWindow 48000 with bus := b, log := l, records := r, work := w } := by
  obtain ⟨x, hx⟩ := s.airTaken.announced_frame
  rw [State.takeAir_eq, State.airAnnounced, hx]
  generalize s.airTaken.setInterval .takenWindow 48000 = y
  exact ⟨_, _, _, _, rfl⟩

theorem State.airTaken_groups (s : State) (a : Fin 3) : (s.airTaken.monitor.groups[a]).state = .sounding
    ∧ (s.airTaken.monitor.groups[a]).silence = 0 ∧ (s.airTaken.monitor.groups[a]).overloadRun = 0 := by
  match a with
  | 0 => exact ⟨rfl, rfl, rfl⟩
  | 1 => exact ⟨rfl, rfl, rfl⟩
  | 2 => exact ⟨rfl, rfl, rfl⟩

theorem State.takeAir_pair (s : State) : s.takeAir.pair = { role := .live, yielding := false, closedAt := none } := by
  obtain ⟨b, l, r, w, hx⟩ := s.takeAir_frame
  rw [hx]
  rfl

theorem State.takeAir_mix (s : State) : s.takeAir.mix = { s.mix with gate := s.mix.gate.openRequest } := by
  obtain ⟨b, l, r, w, hx⟩ := s.takeAir_frame
  rw [hx]
  rfl

theorem State.takeAir_monitor (s : State) : s.takeAir.monitor = s.airTaken.monitor := by
  obtain ⟨b, l, r, w, hx⟩ := s.takeAir_frame
  rw [hx]
  exact s.airTaken.setInterval_monitor .takenWindow 48000

theorem State.takeAir_intervals (s : State) : s.takeAir.intervals = (s.airTaken.setInterval .takenWindow 48000).intervals := by
  obtain ⟨b, l, r, w, hx⟩ := s.takeAir_frame
  rw [hx]

theorem State.takeAir_peers (s : State) : s.takeAir.peers = s.peers := by
  obtain ⟨b, l, r, w, hx⟩ := s.takeAir_frame
  rw [hx]
  exact s.airTaken.setInterval_peers .takenWindow 48000

theorem State.takeAir_decks (s : State) : s.takeAir.decks = s.decks := by
  obtain ⟨b, l, r, w, hx⟩ := s.takeAir_frame
  rw [hx]
  exact s.airTaken.setInterval_decks .takenWindow 48000

theorem State.tookAir_takeAir (s : State) : s.TookAir s.takeAir := by
  have hhas (i : IntervalHandle) : s.takeAir.hasInterval i = (s.airTaken.setInterval .takenWindow 48000).hasInterval i := by
    unfold State.hasInterval
    rw [s.takeAir_intervals]
  refine ⟨s.takeAir_pair, by rw [s.takeAir_mix], fun a => ?_, ?_, ?_, ?_⟩
  · rw [s.takeAir_monitor]
    exact s.airTaken_groups a
  · rw [s.takeAir_intervals]
    exact List.mem_append_right _ (List.mem_singleton_self _)
  · rw [hhas, State.hasInterval_setInterval_ne (by decide)]
    simp [State.hasInterval, State.airTaken]
  · rw [hhas, State.hasInterval_setInterval_ne (by decide)]
    simp only [State.hasInterval, State.airTaken, List.any_eq_false, List.mem_filter, bne_iff_ne, beq_iff_eq]
    exact fun x hx => hx.2

/-- Having taken the air speaks of the gate and the period before alone. -/
theorem State.TookAir.of_before (h : s.TookAir t) (hgate : s.mix.gate = u.mix.gate) (hperiod : s.period = u.period) : u.TookAir t :=
  ⟨h.pair, hgate ▸ h.gate, h.monitor, hperiod ▸ h.window, h.expiries⟩

/-- Reactions leave an engine that has taken the air as it is. -/
theorem State.TookAir.after (h : s.TookAir t) (k : t.After u) : s.TookAir u where
  pair := k.pair_eq.trans h.pair
  gate := k.gate_eq.trans h.gate
  monitor := fun a => by rw [k.groups_eq]; exact h.monitor a
  window := (k.mem_intervals (x := ⟨.takenWindow, s.period + 48000⟩) (fun h => nomatch h)).mpr h.window
  expiries := by
    have hhas {i : IntervalHandle} (hi : i ≠ .readTimeout) (hno : t.hasInterval i = false) : u.hasInterval i = false := by
      rw [Bool.eq_false_iff, ne_eq, State.hasInterval, List.any_eq_true]
      rintro ⟨x, hx, hxi⟩
      have hx' : x.handle = i := beq_iff_eq.mp hxi
      have hmem := (k.mem_intervals (x := x) (by rw [hx']; exact hi)).mp hx
      exact absurd (List.any_eq_true.mpr ⟨x, hmem, hxi⟩) (by rw [State.hasInterval] at hno; rw [hno]; decide)
    exact ⟨hhas (by decide) h.expiries.1, hhas (by decide) h.expiries.2⟩

/-- An engine takes the air and finishes its reactions. -/
theorem State.tookAir_finish (hgate : s.mix.gate = u.mix.gate) (hperiod : s.period = u.period) : u.TookAir s.takeAir.finish :=
  (s.tookAir_takeAir.of_before hgate hperiod).after State.after_finish

/-! ### The events (R177, R178, R184) -/

theorem State.takeForSelf_notLive (h : s.pair.role ≠ .live) : s.takeForSelf = s.takeAir := by
  unfold State.takeForSelf
  cases hr : s.pair.role with
  | live => exact absurd hr h
  | _ => rfl

theorem exec_take_takes {h : Header} (htakes : s.Takes h) :
    exec (.take h) s = .next (if s.forSelf h then (s.onHearing h).takeForSelf else s.onHearing h).finish := by
  rw [exec_take htakes.running, State.hearTake, htakes.heard]
  rfl

theorem State.listenFired_listen (h : s.pair.role = .listen) : s.listenFired = (s.cancelInterval .listen).takeAir := if_pos h

theorem State.listenFired_other (h : s.pair.role ≠ .listen) : s.listenFired = s.cancelInterval .listen := if_neg h

theorem State.partnerNotLive_iff {q : Station} (h : s.partner = some q) :
    s.partnerNotLive = true ↔ (s.peer q).presence = .absent ∨ (s.peer q).role ≠ some .live := by
  simp [State.partnerNotLive, h]

theorem State.absentWatchFired_takes {q : Station} (h : s.pair.role = .shadow) (hq : s.partner = some q)
    (hp : (s.peer q).presence = .absent ∨ (s.peer q).role ≠ some .live) :
    s.absentWatchFired = (s.cancelInterval .absentWatch).takeAir := by
  refine if_pos ?_
  rw [Bool.and_eq_true, decide_eq_true_eq]
  exact ⟨h, (State.partnerNotLive_iff (s := s.cancelInterval .absentWatch) hq).mpr hp⟩

theorem State.absentWatchFired_role (h : s.pair.role ≠ .shadow) : s.absentWatchFired = s.cancelInterval .absentWatch := by
  refine if_neg ?_
  rw [Bool.and_eq_true, decide_eq_true_eq]
  exact fun k => h k.1

theorem State.absentWatchFired_live {q : Station} (hq : s.partner = some q) (hp : (s.peer q).presence ≠ .absent)
    (hr : (s.peer q).role = some .live) : s.absentWatchFired = s.cancelInterval .absentWatch := by
  refine if_neg ?_
  rw [Bool.and_eq_true, decide_eq_true_eq]
  exact fun k => ((State.partnerNotLive_iff (s := s.cancelInterval .absentWatch) hq).mp k.2).elim hp fun x => x hr

theorem State.tableFault_deadAir {q : Station} {f : FaultFields} (hq : s.partner = some q) (hr : s.pair.role = .shadow)
    (hk : f.kind = 1) (hs : f.set ≠ 0) (h1 : 1 ≤ f.group.toNat) (h3 : f.group.toNat ≤ 3) :
    s.tableFault q f = (s.modPeer q fun p => p.fault f).takeAir := by
  have hkind : f.kind.toNat = 1 := by rw [hk]; rfl
  have hgroup : f.group ≠ 0 := by
    intro h0
    rw [h0] at h1
    exact absurd h1 (by decide)
  have hdefined : faultDefined f = true := by
    simp only [faultDefined, hkind, Bool.and_eq_true, decide_eq_true_eq]
    omega
  have hcond : ((s.modPeer q fun p => p.fault f).isPartner q && f.kind == 1 && f.set != 0 && f.group != 0) = true := by
    rw [Bool.and_eq_true, Bool.and_eq_true, Bool.and_eq_true]
    exact ⟨⟨⟨State.isPartner_iff.mpr hq, beq_iff_eq.mpr hk⟩, bne_iff_ne.mpr hs⟩, bne_iff_ne.mpr hgroup⟩
  have hshadow : (s.modPeer q fun p => p.fault f).pair.role = .shadow := hr
  unfold State.tableFault
  rw [if_pos hdefined]
  dsimp only
  rw [if_pos hcond, State.partnerDeadAir, if_pos hshadow]

/-- Settles O38: each event that takes the air, and each that does not. -/
theorem takeoverEventsTakeTheAir : Obligations.TakeoverEventsTakeTheAir := by
  refine ⟨fun s hrun => ⟨fun h htakes hself hrole => ?_, fun h f hhears hpartner hrole hkind hset h1 h3 => ?_, fun hdue hrole => ?_,
    fun q hdue hrole hq hp => ?_, fun q hdue hrole hq => ?_⟩, fun s hrun hrest => ⟨fun h htakes hnot => ?_, fun hdue hrole => ?_,
    fun hdue hrole => ?_, fun q hdue hq hp hr => ?_⟩⟩
  · have hrole' : (s.onHearing h).pair.role ≠ .live := by rw [State.onHearing_pair]; exact hrole
    refine ⟨_, exec_take_takes htakes, ?_⟩
    rw [if_pos hself, State.takeForSelf_notLive hrole']
    exact State.tookAir_finish (by rw [State.onHearing_mix]) (s.onHearing_period h)
  · have hrole' : (s.onHearing h).pair.role = .shadow := by rw [State.onHearing_pair]; exact hrole
    refine ⟨_, exec_peerFault hrun h f, ?_⟩
    rw [State.hearFault, hhears.heard, State.tableFault_deadAir (s := s.onHearing h) hpartner hrole' hkind hset h1 h3]
    exact State.tookAir_finish (by rw [State.modPeer_mix, State.onHearing_mix]) (s.onHearing_period h)
  · refine ⟨_, (exec_listenExpiry hrun).trans (congrArg _ (if_pos hdue)), ?_⟩
    rw [State.listenFired_listen hrole]
    exact State.tookAir_finish rfl rfl
  · refine ⟨_, (exec_absentWatch hrun).trans (congrArg _ (if_pos hdue)), ?_⟩
    rw [State.absentWatchFired_takes hrole hq hp]
    exact State.tookAir_finish rfl rfl
  · have hafter := State.after_settleWork (s := s.loseStation q)
    have hlost : s.peerLossFired q = (s.loseStation q).settleWork.takeAir := by
      have hrole' : (s.loseStation q).settleWork.pair.role = .shadow := by rw [hafter.pair_eq]; exact hrole
      have hq' : (s.loseStation q).settleWork.isPartner q = true := State.isPartner_iff.mpr (by
        rw [State.partner, hafter.cfg_eq]
        exact hq)
      unfold State.peerLossFired
      dsimp only
      rw [if_pos hq']
      simp only [State.partnerLost, hrole']
    refine ⟨_, (exec_peerLoss hrun q).trans (congrArg _ (if_pos hdue)), ?_⟩
    rw [hlost]
    exact State.tookAir_finish hafter.gate_eq hafter.period_eq
  · have hself : (if s.forSelf h = true then (s.onHearing h).takeForSelf else s.onHearing h) = s.onHearing h := by
      obtain hlive | hother := hnot
      · have hlive' : (s.onHearing h).pair.role = .live := by rw [State.onHearing_pair]; exact hlive
        simp only [State.takeForSelf, hlive', ite_self]
      · rw [if_neg (by rw [hother]; decide)]
    rw [exec_take_takes htakes, hself, State.finish_atRest (hrest.onHearing h)]
  · rw [exec_listenExpiry hrun, if_pos hdue, State.listenFired_other hrole, State.finish_atRest (hrest.cancelInterval _)]
  · rw [exec_absentWatch hrun, if_pos hdue, State.absentWatchFired_role hrole, State.finish_atRest (hrest.cancelInterval _)]
  · rw [exec_absentWatch hrun, if_pos hdue, State.absentWatchFired_live hq hp hr, State.finish_atRest (hrest.cancelInterval _)]

end Sys2Proof.Machine
end


section
/-! Laws of STATUS and loss of a peer (R161, R167, R178, R188), of the gate's ends (R109, R188) and of the line (R142 to R145). -/

namespace Sys2Proof.Machine

variable {s t u : State} {d : DeckNo}

/-! ### STATUS from a peer (R167) -/

theorem State.peer_congr (h : t.peers = s.peers) (q : Station) : t.peer q = s.peer q := by
  unfold State.peer
  rw [h]

theorem State.partnerIsLive_peers (s : State) : s.partnerIsLive.peers = s.peers := by
  unfold State.partnerIsLive
  split <;> rfl

theorem State.partnerDeadAir_peers (s : State) : s.partnerDeadAir.peers = s.peers := by
  unfold State.partnerDeadAir
  split
  · exact s.takeAir_peers
  · rfl

theorem State.tableStatus_peers (s : State) (q : Station) (f : StatusFields) :
    (s.tableStatus q f).peers = (s.modPeer q fun p => p.status f).peers := by
  unfold State.tableStatus
  dsimp only
  split
  · split
    · rw [State.partnerDeadAir_peers]
      split
      · exact State.partnerIsLive_peers _
      · rfl
    · split
      · exact State.partnerIsLive_peers _
      · rfl
  · rfl

theorem State.tableStatus_stranger {q : Station} (h : s.partner ≠ some q) (f : StatusFields) :
    s.tableStatus q f = s.modPeer q fun p => p.status f :=
  if_neg fun k => h (State.isPartner_iff.mp k)

theorem State.tableStatus_partner {q : Station} (h : s.partner = some q) (f : StatusFields) : s.tableStatus q f
    = (fun y : State => if (s.peer q).newDeadAir f then y.partnerDeadAir else y)
      (if statusRole f = some .live then (s.modPeer q fun p => p.status f).partnerIsLive else s.modPeer q fun p => p.status f) :=
  if_pos (State.isPartner_iff (s := s.modPeer q fun p => p.status f).mpr h)

theorem Peer.newDeadAir_iff (p : Peer) (f : StatusFields) :
    p.newDeadAir f = true ↔ ∃ a : Fin 3, (p.faults[a.succ]).deadAir = false ∧ statusDeadAir f a = true := by
  have hor : p.newDeadAir f = true ↔ ((p.faults[1].deadAir = false ∧ statusDeadAir f 0 = true)
      ∨ (p.faults[2].deadAir = false ∧ statusDeadAir f 1 = true)) ∨ (p.faults[3].deadAir = false ∧ statusDeadAir f 2 = true) := by
    simp only [Peer.newDeadAir, Bool.or_eq_true, Bool.and_eq_true, Bool.not_eq_true']
  rw [hor]
  constructor
  · rintro ((h | h) | h)
    · exact ⟨0, h⟩
    · exact ⟨1, h⟩
    · exact ⟨2, h⟩
  · rintro ⟨a, h⟩
    match a with
    | 0 => exact .inl (.inl h)
    | 1 => exact .inl (.inr h)
    | 2 => exact .inr h

theorem Peer.status_faults (p : Peer) (f : StatusFields) (a : Fin 3) :
    (p.status f).faults[a.succ] = alignFaults p.faults[a.succ] f (some a) := by
  match a with
  | 0 => rfl
  | 1 => rfl
  | 2 => rfl

/-- Settles O45: the entry, then what the partner's STATUS does. -/
theorem peerStatusUpdatesTheEntry : Obligations.PeerStatusUpdatesTheEntry := by
  intro s h f hhears
  have hexec : exec (.peerStatus h f) s = .next ((s.onHearing h).tableStatus (senderOf h) f).finish := by
    rw [exec_peerStatus hhears.running, State.hearStatus, hhears.heard]
  have hpeer : (s.onHearing h).peer (senderOf h) = _ := s.peer_onHearing_sender h
  have hfresh : ((s.onHearing h).peer (senderOf h)).newDeadAir f = (s.peer (senderOf h)).newDeadAir f := by rw [hpeer]; rfl
  refine ⟨⟨_, hexec, ?_⟩, fun hpartner hrole hlive hold => ⟨_, hexec, ?_⟩, fun hpartner hrole hnew => ⟨_, hexec, ?_⟩⟩
  · have hpeers : ((s.onHearing h).tableStatus (senderOf h) f).finish.peers
        = ((s.onHearing h).modPeer (senderOf h) fun p => p.status f).peers :=
      State.after_finish.peers_eq.trans ((s.onHearing h).tableStatus_peers (senderOf h) f)
    have hself : ((s.onHearing h).tableStatus (senderOf h) f).finish.peer (senderOf h)
        = ({ s.peer (senderOf h) with presence := .present, lastHeard := some s.clock.airTime } : Peer).status f := by
      rw [State.peer_congr hpeers, State.peer_modPeer_self, hpeer]
    rw [hself]
    refine ⟨rfl, rfl, rfl, rfl, rfl, fun a => ?_, rfl, rfl, rfl, rfl, fun u hu => ?_, fun hother hrest => ?_⟩
    · dsimp only
      rw [Peer.status_faults]
      exact ⟨rfl, rfl, rfl⟩
    · rw [State.peer_congr hpeers, State.peer_modPeer_ne _ _ _ _ hu.symm, State.peer_onHearing_other hu]
    · rw [State.tableStatus_stranger (s := s.onHearing h) hother, State.finish_atRest ((hrest.onHearing h).modPeer _ _)]
      rfl
  · have hnot : ((s.onHearing h).peer (senderOf h)).newDeadAir f = false := by
      rw [hfresh, Bool.eq_false_iff, ne_eq, Peer.newDeadAir_iff]
      rintro ⟨a, hclear, hset⟩
      obtain hwas | hnow := hold a
      · exact absurd (hclear.symm.trans hwas) (by decide)
      · exact absurd (hnow.symm.trans hset) (by decide)
    have hlisten : ((s.onHearing h).modPeer (senderOf h) fun p => p.status f).pair.role = .listen := hrole
    have htable : (s.onHearing h).tableStatus (senderOf h) f
        = ({ ((s.onHearing h).modPeer (senderOf h) fun p => p.status f) with pair := { s.pair with role := .shadow } } : State).cancelInterval
          .listen := by
      rw [State.tableStatus_partner (s := s.onHearing h) hpartner, if_pos hlive, hnot]
      exact if_pos hlisten
    refine ⟨State.after_finish.pair_eq.trans (by rw [htable]; rfl), ?_⟩
    have hno : ((s.onHearing h).tableStatus (senderOf h) f).hasInterval .listen = false := by
      rw [htable]
      exact State.hasInterval_cancelInterval_same _ _
    rw [State.hasInterval, List.any_eq_false] at hno ⊢
    intro x hx hxi
    have hx' : x.handle = .listen := beq_iff_eq.mp hxi
    exact hno x ((State.after_finish.mem_intervals (by rw [hx']; decide)).mp hx) hxi
  · have hyes : ((s.onHearing h).peer (senderOf h)).newDeadAir f = true := by
      rw [hfresh, Peer.newDeadAir_iff]
      exact hnew
    have hshadow : ((s.onHearing h).modPeer (senderOf h) fun p => p.status f).pair.role = .shadow := hrole
    have hsame : (if statusRole f = some .live then ((s.onHearing h).modPeer (senderOf h) fun p => p.status f).partnerIsLive
        else (s.onHearing h).modPeer (senderOf h) fun p => p.status f) = (s.onHearing h).modPeer (senderOf h) fun p => p.status f := by
      split
      · exact if_neg (by rw [hshadow]; decide)
      · rfl
    rw [State.tableStatus_partner (s := s.onHearing h) hpartner, hsame, hyes]
    dsimp only
    rw [if_pos rfl, State.partnerDeadAir, if_pos hshadow]
    exact State.tookAir_finish (by rw [State.modPeer_mix, State.onHearing_mix]) (s.onHearing_period h)

/-! ### The loss of a peer (R161, R188) -/

theorem State.peerLossFired_stays {q : Station} (h : s.partner ≠ some q ∨ s.pair.role = .listen ∨ s.pair.role = .live ∧ s.pair.yielding = false) :
    s.peerLossFired q = (s.loseStation q).settleWork := by
  have hafter := State.after_settleWork (s := s.loseStation q)
  have hpair : (s.loseStation q).settleWork.pair = s.pair := hafter.pair_eq.trans rfl
  unfold State.peerLossFired
  dsimp only
  split
  · rename_i hpartner
    obtain hother | hlisten | ⟨hlive, hkeeps⟩ := h
    · refine absurd ?_ hother
      have hq := State.isPartner_iff.mp hpartner
      rw [State.partner, hafter.cfg_eq] at hq
      exact hq
    · simp only [State.partnerLost, hpair, hlisten]
    · simp only [State.partnerLost, hpair, hlive, hkeeps, Bool.false_eq_true, if_false]
  · rfl

theorem State.peerLossFired_stopsYield {q : Station} (hq : s.partner = some q) (hlive : s.pair.role = .live) (hy : s.pair.yielding = true) :
    s.peerLossFired q = (s.loseStation q).settleWork.stopYield := by
  have hafter := State.after_settleWork (s := s.loseStation q)
  have hpair : (s.loseStation q).settleWork.pair = s.pair := hafter.pair_eq.trans rfl
  have hpartner : (s.loseStation q).settleWork.isPartner q = true := State.isPartner_iff.mpr (by
    rw [State.partner, hafter.cfg_eq]
    exact hq)
  unfold State.peerLossFired
  dsimp only
  rw [if_pos hpartner]
  simp only [State.partnerLost, hpair, hlive, hy, if_true]

/-- Settles O46: the entry's loss and its triggers, then the pair controller's part. -/
theorem peerLossEmptiesTheEntry : Obligations.PeerLossEmptiesTheEntry := by
  intro s q hrun hwork hdue x
  have hx : x = (s.loseStation q).settleWork := rfl
  clear_value x
  subst hx
  have hafter := State.after_settleWork (s := s.loseStation q)
  have hexec : exec (.peerLoss q) s = .next (s.peerLossFired q).finish := (exec_peerLoss hrun q).trans (congrArg _ (if_pos hdue))
  have hpair : (s.loseStation q).settleWork.pair = s.pair := hafter.pair_eq.trans rfl
  have hgate : (s.loseStation q).settleWork.mix.gate = s.mix.gate := hafter.gate_eq.trans rfl
  refine ⟨hpair, hgate, fun hstays => ?_, fun hq hlive hy => ?_⟩
  · rw [hexec, State.peerLossFired_stays hstays]
  · rw [hexec, State.peerLossFired_stopsYield hq hlive hy]
    unfold State.stopYield State.announceTaken State.modGate
    dsimp only
    rw [hpair, hgate]

end Sys2Proof.Machine
end


section
/-! Laws of the gate's ends and the yield (R109, R188), and of the line's beginnings (R142 to R145). -/

namespace Sys2Proof.Machine

variable {s t u : State} {d : DeckNo}

/-! ### The gate's ends (R109) -/

theorem Gate.openDone_iff (g : Gate) : g.openDone = true ↔ g.state = .opening ∧ 960 ≤ g.weight := by
  simp [Gate.openDone]

theorem Gate.closeDone_iff (g : Gate) : g.closeDone = true ↔ g.state = .closing ∧ g.weight = 0 := by
  simp [Gate.closeDone]

/-! ### The end of a yield (R188) -/

theorem State.yieldDone_closed {n : Nat} (hy : s.pair.yielding = true) (hn : s.pair.closedAt = some n) (hlt : n < s.period) :
    s.yieldDone = true := by
  simp [State.yieldDone, hy, hn, hlt]

/-- The judgement of a window changes bus, log and monitor alone. -/
theorem State.monitorWindowAt_frame (s : State) : ∃ (y : State) (m : Monitor), s.monitorWindowAt = (s.withLine y).withMonitor m := by
  cases h : s.monitor.full with
  | false => exact ⟨s, s.monitor, State.monitorWindowAt_eq_self h⟩
  | true => exact ⟨_, _, (State.monitorWindowAt_full h).trans (congrArg (fun x : State => x.withMonitor _) (State.handAll_frame _ _))⟩

/-- A group's monitor after a yield (R121). -/
def GroupMonitor.yielded (g : GroupMonitor) : GroupMonitor :=
  { g with state := .suspended, silence := 0, overloadRun := 0 }.spoilWindow false

/-- The monitor of an engine that has yielded: suspended, counts and timers at 0, no STORE FAULT waiting (R121). -/
def Monitor.yielded (m : Monitor) : Monitor :=
  { m with
    groups := ⟨#[m.groups[0].yielded, m.groups[1].yielded, m.groups[2].yielded], rfl⟩
    timers := Vector.replicate 4 0, storeFaults := [] }

/-- An engine that has yielded, before its duck requests are withdrawn and its records marked. -/
def State.yieldedFrom (s x : State) : State :=
  { x with
    pair := { role := .shadow, yielding := false, closedAt := none }
    mix := { s.mix with gate := { state := .closed, weight := 0 } }, monitor := x.monitor.yielded }

theorem Monitor.yielded_groups (m : Monitor) (a : Fin 3) : m.yielded.groups[a] = m.groups[a].yielded := by
  match a with
  | 0 => rfl
  | 1 => rfl
  | 2 => rfl

/-- The yield's end in normal form. -/
theorem State.yieldToShadowAt_eq (h : s.yieldDone = true) : ∃ y : State,
    s.yieldToShadowAt = ((s.yieldedFrom s.monitorWindowAt).withLine y).markYielded := by
  have hyield : s.yieldToShadowAt = (({ s.monitorWindowAt.releaseStoreFaults fun _ => true with
      pair := { role := .shadow, yielding := false, closedAt := none }
      mix := { (s.monitorWindowAt.releaseStoreFaults fun _ => true).mix with gate := { state := .closed, weight := 0 } } } :
        State).monitorSuspend.announceDucks true).markYielded := if_pos h
  obtain ⟨w, m, hwindow⟩ := s.monitorWindowAt_frame
  have hmix : s.monitorWindowAt.mix = s.mix := by rw [hwindow]; rfl
  generalize s.monitorWindowAt = x at hmix hyield
  have hrelease := x.releaseStoreFaults_eq fun _ => true
  rw [State.handAll_frame] at hrelease
  simp only [Bool.not_true, List.filter_false] at hrelease
  generalize State.handAll _ _ = v at hrelease
  have hsuspend : ({ x.releaseStoreFaults fun _ => true with
      pair := { role := .shadow, yielding := false, closedAt := none }
      mix := { (x.releaseStoreFaults fun _ => true).mix with gate := { state := .closed, weight := 0 } } } : State).monitorSuspend
      = (s.yieldedFrom x).withLine v := by
    rw [hrelease]
    simp only [State.monitorSuspend, State.modGroups, State.clearTimers, State.withMonitor, State.withLine, State.yieldedFrom,
      Monitor.yielded, GroupMonitor.yielded, hmix]
  rw [hsuspend, State.announceDucks_frame] at hyield
  generalize State.announceDucks _ _ = y at hyield
  exact ⟨y, hyield⟩

theorem CueRecord.markYielded_eq (r : CueRecord) :
    (if r.sounding then { r with flags := { r.flags with yieldedMid := true } } else r)
      = { r with flags := { r.flags with yieldedMid := r.flags.yieldedMid || r.sounding } } := by
  cases h : r.sounding with
  | true => simp
  | false => simp

/-- Settles O42: the gate's two reports, then the yield's end in normal form. -/
theorem gateEndsLeadToTheReports : Obligations.GateEndsLeadToTheReports := by
  refine ⟨fun s hrun => ⟨fun hstate hweight => ?_, fun hstate hweight => ?_, fun hnot => ?_, fun hnot => ?_⟩,
    fun s n hrun hy hn hlt => ⟨State.monitorWindowAt_eq_self, ?_⟩⟩
  · rw [exec_gateOpen hrun, State.gateOpenAt, if_pos ((Gate.openDone_iff _).mpr ⟨hstate, hweight⟩)]
    rfl
  · rw [exec_gateClosed hrun, State.gateClosedAt, if_pos ((Gate.closeDone_iff _).mpr ⟨hstate, hweight⟩)]
    rfl
  · rw [exec_gateOpen hrun, State.gateOpenAt, if_neg]
    rw [Gate.openDone_iff]
    exact fun h => hnot.elim (fun k => k h.1) fun k => absurd h.2 (Nat.not_le.mpr k)
  · rw [exec_gateClosed hrun, State.gateClosedAt, if_neg]
    rw [Gate.closeDone_iff]
    exact fun h => hnot.elim (fun k => k h.1) fun k => k h.2
  · obtain ⟨y, hyield⟩ := State.yieldToShadowAt_eq (State.yieldDone_closed hy hn hlt)
    obtain ⟨w, m, hwindow⟩ := s.monitorWindowAt_frame
    have hdecks : s.monitorWindowAt.decks = s.decks := s.monitorWindowAt_decks
    have hintervals : s.monitorWindowAt.intervals = s.intervals := by rw [hwindow]; rfl
    have hrecords : s.monitorWindowAt.records = s.records := by rw [hwindow]; rfl
    refine ⟨_, exec_yieldToShadow hrun, ?_⟩
    rw [hyield]
    generalize s.monitorWindowAt = x at hdecks hintervals hrecords
    refine ⟨rfl, Bool.and_false _, rfl, hdecks, hintervals, fun d => Vector.getElem_replicate .., rfl, fun a => ?_, ?_⟩
    · have hgroup : (((s.yieldedFrom x).withLine y).markYielded).monitor.groups[a] = x.monitor.groups[a].yielded :=
        Monitor.yielded_groups x.monitor a
      dsimp only
      rw [hgroup]
      exact ⟨rfl, rfl, rfl, rfl, rfl, rfl⟩
    · have hmarked : (((s.yieldedFrom x).withLine y).markYielded).records = x.records.map fun r =>
          if r.sounding then { r with flags := { r.flags with yieldedMid := true } } else r := rfl
      rw [hmarked, hrecords]
      exact List.map_congr_left fun r _ => r.markYielded_eq

/-! ### Frames begun, arbitration lost (R142 to R145) -/

theorem State.hasInterval_of_due {i : IntervalHandle} (h : s.intervalDue i = true) : s.hasInterval i = true := by
  rw [State.intervalDue, List.any_eq_true] at h
  obtain ⟨x, hx, hi⟩ := h
  exact List.any_eq_true.mpr ⟨x, hx, (Bool.and_eq_true _ _ ▸ hi).1⟩

theorem CueBus.line_handPlain (b : CueBus) (n : Notice) : (b.handPlain n).1.line = b.line := by
  unfold CueBus.handPlain
  split
  · rfl
  · split
    · rfl
    · split
      · dsimp only
        split <;> rfl
      · rfl

theorem State.line_judgeOffer (s : State) : s.judgeOffer.bus.line = s.bus.line := by
  obtain h | ⟨r, -, -, h⟩ := s.judgeOffer_cases
  · rw [h]
  · rw [h]
    rfl

theorem CueBus.line_leave (b : CueBus) (o : Nat) : (b.leave o).line = b.line := by
  unfold CueBus.leave
  dsimp only
  split
  · rfl
  · exact CueBus.line_handPlain _ _

theorem State.line_endFlown (s : State) : s.endFlown.bus.line = s.bus.line := by
  unfold State.endFlown
  split
  · rfl
  · split
    · unfold State.toldDropped
      split
      · exact (State.line_judgeOffer _).trans (s.bus.line_leave _)
      · exact (State.line_judgeOffer _).trans (s.bus.line_leave _)
    · rfl

/-- After an error flag the line waits for idle (R146). -/
theorem State.line_endFlag (h : s.bus.line = .flagging) : s.endFlag.bus.line = .waitIdle := by
  rw [State.endFlag_flagging h]
  refine Eq.trans ?_ (State.line_endFlown (s.modBus fun b => { b with line := .waitIdle, recessive := 0 }))
  generalize State.endFlown _ = x
  unfold State.judgeQuiet
  split <;> rfl

/-- The content of a queued STATUS replaced, notice by notice (R151). -/
theorem replaceStatus_eq (f : StatusFields) (l : List Queued) : replaceStatus f l = l.map fun x => match x.notice with
    | .status _ => { x with notice := .status f }
    | _ => x := by
  refine List.map_congr_left fun x _ => ?_
  obtain ⟨n, o, e⟩ := x
  cases n <;> rfl

/-- Settles O47: the line made idle, the frame begun after the pair's expiries, arbitration lost. -/
theorem framesBeginOnAnIdleLine : Obligations.FramesBeginOnAnIdleLine := by
  refine ⟨fun s hrun => ⟨fun hline => ?_, fun hline => ?_, fun hline => ?_, State.pairFirst_eq_self, fun hlisten habsent hrole => ?_,
    fun q hlisten habsent hrole hq hp => ?_, fun q l hsend hline hqueue => ?_, fun hnot => ?_⟩, fun s q hrun hline hflight hfind => ?_⟩
  · have hflag : s.endFlag = s := State.endFlag_eq_self fun h => by
      rw [h] at hline
      exact hline.elim (fun k => nomatch k) fun k => nomatch k
    rw [exec_lineIdle hrun, State.lineIdleAt, hflag]
    obtain h | h := hline <;> simp only [State.modBus, CueBus.lineIdle, h]
  · have hwait := State.line_endFlag hline
    rw [exec_lineIdle hrun, State.lineIdleAt]
    simp only [State.modBus, CueBus.lineIdle, hwait]
  · have hflag : s.endFlag = s := State.endFlag_eq_self fun h => by
      rw [h] at hline
      exact hline.elim (fun k => nomatch k) fun k => nomatch k
    rw [exec_lineIdle hrun, State.lineIdleAt, hflag]
    obtain h | h := hline <;> simp only [State.modBus, CueBus.lineIdle, h]
  · have htook : s.TookAir (s.cancelInterval .listen).takeAir.finish := State.tookAir_finish rfl rfl
    have hnot : (s.cancelInterval .listen).takeAir.finish.intervalDue .absentWatch = false := by
      rw [Bool.eq_false_iff]
      exact fun h => absurd (State.hasInterval_of_due h) (by rw [htook.expiries.2]; decide)
    have hfirst : (if s.intervalDue .listen = true then s.listenFired.finish else s) = (s.cancelInterval .listen).takeAir.finish := by
      rw [if_pos hlisten, State.listenFired_listen hrole]
    rw [State.pairFirst, hfirst, hnot, if_neg (by decide)]
    exact htook
  · have hfirst : (if s.intervalDue .listen = true then s.listenFired.finish else s) = s := if_neg (by rw [hlisten]; decide)
    rw [State.pairFirst, hfirst, if_pos habsent, State.absentWatchFired_takes hrole hq hp]
    exact State.tookAir_finish rfl rfl
  · rw [exec_frameBegin hrun]
    simp only [State.modBus, CueBus.begin_, hsend, hline, hqueue]
  · rw [exec_frameBegin hrun]
    have hself : s.pairFirst.bus.begin_ = s.pairFirst.bus := by
      unfold CueBus.begin_
      split
      · rename_i hsend hline hqueue
        exact absurd hnot (by simp [hsend, hline, hqueue])
      · rfl
    rw [State.modBus, hself]
  · rw [exec_arbitrationLost hrun]
    simp only [State.modBus, CueBus.loseArbitration, CueBus.sending_eq hline hflight hfind, CueBus.endAttempt]
    cases s.bus.held with
    | none => rfl
    | some f =>
      have hqueue := replaceStatus_eq f s.bus.queue
      dsimp only
      rw [hqueue] <;> rfl

end Sys2Proof.Machine
end


section
/-! Laws of following the partner (R81 to R83, R181, R182), and of what taking the air announces and marks (R183, R185, R186). -/

namespace Sys2Proof.Machine

variable {s t u : State} {d : DeckNo}

/-! ### The partner's START and END followed (R181, R182) -/

/-- A start in an engine that is not LIVE hands nothing. -/
theorem State.startDeck_bus (h : s.isLive = false) (r : CueRecord) (d : DeckNo) (it : Item) (since : Option Nat) (cold late : Bool) :
    (s.startDeck r d it since cold late).bus = s.bus := by
  have hstart : s.startDeck r d it since cold late
      = (fun a : State => (fun b : State => (fun c : State => c.emit (startTasks r d (c.deck d) (it.passedAt (catchUp s.now since))))
          (b.handLive (startNotice r (b.deck d) it (subAir s.now (catchUp s.now since)))))
        ((a.applyTruncation d).activateDuck d r.tag it)) (s.startedAt r d it (catchUp s.now since) cold late) := rfl
  have hbase : (s.startedAt r d it (catchUp s.now since) cold late).pair = s.pair
      ∧ (s.startedAt r d it (catchUp s.now since) cold late).bus = s.bus := by
    simp [State.startedAt, State.modDeck, State.cancelRecordExpiries]
  generalize s.startedAt r d it (catchUp s.now since) cold late = a at hstart hbase
  dsimp only at hstart
  obtain ⟨e, t, l, g, htrunc⟩ := a.applyTruncation_frame d
  have hpair : (a.applyTruncation d).pair = s.pair := by rw [htrunc, State.setDeck_pair, hbase.1]
  have hbus : (a.applyTruncation d).bus = s.bus := by rw [htrunc, State.setDeck_bus, hbase.2]
  generalize a.applyTruncation d = b at hstart hpair hbus
  have hduck : (b.activateDuck d r.tag it).pair = s.pair ∧ (b.activateDuck d r.tag it).bus = s.bus := by
    unfold State.activateDuck
    split
    · exact ⟨hpair, hbus⟩
    · dsimp only
      rw [State.handLive_notLive (by rw [State.isLive, State.setRequest_pair, hpair, ← State.isLive]; exact h), State.setRequest_pair,
        State.setRequest_bus]
      exact ⟨hpair, hbus⟩
  generalize b.activateDuck d r.tag it = c at hstart hduck
  rw [State.handLive_notLive (by rw [State.isLive, hduck.1, ← State.isLive]; exact h)] at hstart
  rw [hstart, State.emit_bus, hduck.2]

theorem State.followStart_deck {tag : Nat} {r : CueRecord} {it : Item} (hlive : s.isLive = false) (hfind : s.find tag = some r)
    (hstate : r.state = .armed ∨ r.state = .bound) (hkind : r.kind ≠ .hardAt) (hd : r.deck = some d) (hit : (s.deck d).item = some it)
    (start : Option Nat) : s.followStart tag start = s.startDeck r d it start (decide (r.state = .bound)) false := by
  have htag : r.tag = tag := State.find_tag hfind
  have hnot : r.displacesNow = false := by rw [CueRecord.displacesNow, beq_eq_false_iff_ne.mpr hkind]; rfl
  have hunstarted : r.unstarted = true := by
    unfold CueRecord.unstarted
    obtain h | h := hstate <;> rw [h] <;> rfl
  have hrecord (cold : Bool) : s.startFollowed r start cold = s.startDeck r d it start cold false := by
    simp only [State.startFollowed, State.startRecord, hnot, htag, hfind, hunstarted, hd, hit, Bool.not_true, Bool.false_eq_true, if_false]
  obtain h | h := hstate
  · simp only [State.followStart, hlive, hfind, h, hrecord] <;> rfl
  · simp only [State.followStart, hlive, hfind, h, hrecord] <;> rfl

/-- Settles O40: the record's state decides what is followed. -/
theorem partnersItemsAreFollowed : Obligations.PartnersItemsAreFollowed := by
  refine ⟨fun s tag start hnot => ?_, fun s tag r hfind => ?_, fun s tag r hlive hfind => ⟨fun start hstate => ?_, fun start hstate => ?_,
    fun hun => ?_, fun hstate haired => ?_, fun d hstate hd hs => ?_, fun d it st hstate hkind hd hit => ?_⟩⟩
  · obtain hlive | hnone := hnot
    · exact ⟨if_pos hlive, if_pos hlive⟩
    · simp only [State.followStart, State.followPartnerEnd, hnone, ite_self, and_self]
  · have htell : s.perform (.seguePast tag) = s.tellSegue tag := rfl
    rw [htell]
    simp only [State.tellSegue, hfind] <;> rfl
  · obtain h | h := hstate <;> simp only [State.followStart, hlive, hfind, h] <;> rfl
  · obtain h | h := hstate <;> simp only [State.followStart, hlive, hfind, h] <;> rfl
  · simp only [State.followPartnerEnd, hlive, hfind, hun, Bool.false_eq_true, if_false, if_true]
  · have hun : r.unstarted = false := by rw [CueRecord.unstarted, hstate]; rfl
    simp only [State.followPartnerEnd, hlive, hfind, hun, hstate, haired, Bool.false_eq_true, if_false, and_self, if_true]
  · have hun : r.unstarted = false := by
      unfold CueRecord.unstarted
      obtain ⟨h, -⟩ | h := hstate <;> rw [h] <;> rfl
    have hnot : ¬ (r.state = .onAir ∧ r.airedLive = true) := by
      rintro ⟨hair, haired⟩
      obtain ⟨-, h⟩ | h := hstate
      · exact absurd (h.symm.trans haired) (by decide)
      · exact nomatch hair.symm.trans h
    simp only [State.followPartnerEnd, hlive, hfind, hun, hd, hs, if_neg hnot, Bool.false_eq_true, if_false, if_true]
  · have hafter := s.after_followStart tag (some st)
    have heq := State.followStart_deck hlive hfind hstate hkind hd hit (some st)
    rw [heq] at hafter
    obtain ⟨⟨e, t, l, g, hdeck⟩, hothers, hrecords, -, hwork⟩ := s.startDeck_spec r d it (some st) (decide (r.state = .bound)) false
    have hbus := State.startDeck_bus hlive r d it (some st) (decide (r.state = .bound)) false
    have hp : catchUp s.now (some st) = if isDue st s.now = true then subAir s.now st else 0 := rfl
    rw [hp] at hdeck hrecords hwork
    dsimp only
    rw [heq]
    generalize s.startDeck r d it (some st) (decide (r.state = .bound)) false = x at hafter hdeck hothers hrecords hbus hwork
    generalize (if isDue st s.now = true then subAir s.now st else 0) = p at hdeck hrecords hwork
    obtain rfl : r.tag = tag := State.find_tag hfind
    have hxfind : x.find r.tag = some (r.goOnAir (subAir s.now p) s.isLive (decide (r.state = .bound)) false) := by
      rw [← State.find_modRecord hfind (fun r' => r'.goOnAir (subAir s.now p) s.isLive (decide (r.state = .bound)) false) fun _ => rfl]
      unfold State.find
      rw [hrecords]
    refine ⟨by rw [hdeck]; rfl, by rw [hdeck]; rfl, by rw [hdeck]; rfl, by rw [hdeck]; rfl, by rw [hdeck]; rfl, fun hpos hseg => ?_,
      ⟨_, hxfind, rfl, rfl, rfl, rfl, by rw [CueRecord.goOnAir, hlive, Bool.or_false], rfl⟩, hothers, hbus, hafter⟩
    have hpassed : it.passedAt p = true := by simp [Item.passedAt, hpos, hseg]
    rw [hwork, hpassed]
    simp [startTasks]

end Sys2Proof.Machine
end


section
/-! Laws of what an engine that takes the air announces and marks (R183, R185, R186). -/

namespace Sys2Proof.Machine

variable {s t u x : State} {d : DeckNo}

/-! ### Notices handed deck by deck, with room for them (R150) -/

theorem State.bus_hand_room {n : Notice} (h : s.bus.queue.length < 8) (hn : n.isStatus = false) : (s.hand n).bus = s.bus.join n := by
  have hplain : s.bus.handed? n = (s.bus.join n, false) := by
    have heq : s.bus.handed? n = s.bus.handPlain n := by
      cases n with
      | status f => exact nomatch hn
      | _ => rfl
    rw [heq, CueBus.handPlain_room h]
  rw [State.bus_hand_kept (by rw [hplain]), hplain]

/-- The bus after a deck's notice, if it has one. -/
def State.busAfter (s : State) : Option Notice → CueBus
  | none => s.bus
  | some n => (s.hand n).bus

/-- Steps that hand one notice for each of some decks, with room for all: each is queued, and what was queued stays. -/
theorem State.foldl_hands {f : State → DeckNo → State} {note : DeckNo → Option Notice} {I : State → Prop}
    (hI : ∀ x e, I x → I (f x e)) (hbus : ∀ x e, I x → (f x e).bus = x.busAfter (note e))
    (hnote : ∀ e n, note e = some n → n.isStatus = false) (l : List DeckNo) (hx : I x)
    (hroom : x.bus.queue.length + l.countP (fun e => (note e).isSome) ≤ 8) :
    (l.foldl f x).bus.queue.length ≤ x.bus.queue.length + l.countP (fun e => (note e).isSome)
      ∧ (∀ q ∈ x.bus.queue, q ∈ (l.foldl f x).bus.queue)
      ∧ (∀ e ∈ l, ∀ n, note e = some n → ∃ q ∈ (l.foldl f x).bus.queue, q.notice = n) := by
  induction l generalizing x with
  | nil => exact ⟨Nat.le_refl _, fun _ hq => hq, fun _ he => absurd he List.not_mem_nil⟩
  | cons e l ih =>
    have hstep := hbus x e hx
    cases hn : note e with
    | none =>
      rw [List.countP_cons_of_neg (by simp [hn])] at hroom ⊢
      rw [hn] at hstep
      obtain ⟨hlen, hkept, hqueued⟩ := ih (hI x e hx) (by rw [hstep]; exact hroom)
      rw [hstep] at hlen hkept
      refine ⟨hlen, hkept, fun e' he' n hn' => ?_⟩
      obtain rfl | hmem := List.mem_cons.mp he'
      · exact nomatch hn.symm.trans hn'
      · exact hqueued e' hmem n hn'
    | some n =>
      rw [List.countP_cons_of_pos (by simp [hn])] at hroom ⊢
      rw [hn, State.busAfter, State.bus_hand_room (by omega) (hnote e n hn)] at hstep
      have hone : (f x e).bus.queue.length = x.bus.queue.length + 1 := by
        rw [hstep]
        exact (insertQueued_perm _ _).length_eq
      obtain ⟨hlen, hkept, hqueued⟩ := ih (hI x e hx) (by omega)
      have hmem (q : Queued) (hq : q = ⟨n, x.bus.handed, 0⟩ ∨ q ∈ x.bus.queue) : q ∈ (l.foldl f (f x e)).bus.queue :=
        hkept q (by rw [hstep]; exact mem_insertQueued.mpr hq)
      refine ⟨by rw [List.foldl_cons]; omega, fun q hq => hmem q (.inr hq), fun e' he' n' hn' => ?_⟩
      obtain rfl | hl := List.mem_cons.mp he'
      · exact ⟨_, hmem _ (.inl rfl), Option.some.inj (hn.symm.trans hn')⟩
      · exact hqueued e' hl n' hn'

/-! ### The duck requests announced (R104) -/

/-- One deck's DUCK. -/
def State.announceDuck (s : State) (d : DeckNo) : State :=
  match s.mix.requests[d] with
  | none => s
  | some q => s.hand (duckNotice q q.depth)

theorem State.announceDucks_eq (s : State) : s.announceDucks false = allDecks.foldl State.announceDuck s := rfl

theorem State.announceDuck_mix (s : State) (d : DeckNo) : (s.announceDuck d).mix = s.mix := by
  unfold State.announceDuck
  split
  · rfl
  · rw [State.hand_frame]
    rfl

/-- The DUCK of a deck's request. -/
def State.duckOf (s : State) (d : DeckNo) : Option Notice := s.mix.requests[d].map fun q => duckNotice q q.depth

theorem State.announceDuck_bus (s : State) (d : DeckNo) : (s.announceDuck d).bus = s.busAfter (s.duckOf d) := by
  unfold State.announceDuck State.duckOf
  cases s.mix.requests[d] <;> rfl

/-! ### The items announced and marked (R183, R185) -/

/-- A record marked as aired while LIVE and taken in mid-item. -/
def CueRecord.taken (r : CueRecord) : CueRecord := { r with airedLive := true, flags := { r.flags with takenMid := true } }

/-- What the announcements leave of a record. -/
def CueRecord.key (r : CueRecord) : Nat × Nat × RecState × Bool := (r.tag, r.cart, r.state, r.setAside)

/-- `x` differs from `s` in marks and handing alone. -/
def State.SameItems (s x : State) : Prop := x.decks = s.decks ∧ x.records.map CueRecord.key = s.records.map CueRecord.key

/-- The START of a sounding deck's item. -/
def State.startOf (s : State) (d : DeckNo) : Option Notice :=
  match (s.deck d).sounding, (s.deck d).bound, (s.deck d).item, (s.deck d).actualStart with
  | true, some tag, some it, some st => (s.find tag).map fun r => startNotice r (s.deck d) it st
  | _, _, _, _ => none

theorem State.announceItem_cases (s : State) (d : DeckNo) : (s.announceItem d = s ∧ s.startOf d = none)
    ∨ ∃ tag it st r, (s.deck d).bound = some tag ∧ s.find tag = some r ∧ s.startOf d = some (startNotice r (s.deck d) it st)
      ∧ s.announceItem d = (s.hand (startNotice r (s.deck d) it st)).modRecord tag CueRecord.taken := by
  unfold State.announceItem State.startOf
  dsimp only
  cases (s.deck d).sounding with
  | false => exact .inl ⟨rfl, rfl⟩
  | true =>
    cases hb : (s.deck d).bound with
    | none => exact .inl ⟨rfl, rfl⟩
    | some tag =>
      cases (s.deck d).item with
      | none => exact .inl ⟨rfl, rfl⟩
      | some it =>
        cases (s.deck d).actualStart with
        | none => exact .inl ⟨rfl, rfl⟩
        | some st =>
          cases hf : s.find tag with
          | none => exact .inl ⟨by simp only [hf], by simp only [hf]; rfl⟩
          | some r => exact .inr ⟨tag, it, st, r, rfl, hf, by simp only [hf]; rfl, by simp only [hf]; rfl⟩

theorem State.find_key (h : s.SameItems x) (tag : Nat) : (x.find tag).map CueRecord.key = (s.find tag).map CueRecord.key := by
  have hkey (y : State) : (y.find tag).map CueRecord.key = (y.records.map CueRecord.key).find? fun k => k.1 == tag := by
    rw [List.find?_map]
    rfl
  rw [hkey, hkey, h.2]

theorem State.map_key_modRecord (s : State) (tag : Nat) :
    (s.modRecord tag CueRecord.taken).records.map CueRecord.key = s.records.map CueRecord.key := by
  rw [State.modRecord_records, List.map_map]
  refine List.map_congr_left fun r _ => ?_
  dsimp only [Function.comp]
  split <;> rfl

theorem State.SameItems.announceItem (h : s.SameItems x) (d : DeckNo) : s.SameItems (x.announceItem d) := by
  obtain ⟨heq, -⟩ | ⟨tag, it, st, r, -, -, -, heq⟩ := x.announceItem_cases d
  · rw [heq]
    exact h
  · rw [heq]
    refine ⟨?_, ?_⟩
    · rw [State.modRecord_decks, State.hand_decks]
      exact h.1
    · rw [State.map_key_modRecord, State.hand_frame]
      exact h.2

/-- The START of an item by what the announcements leave of its record. -/
def startNoticeOf (x : Deck) (it : Item) (st : Nat) (k : Nat × Nat × RecState × Bool) : Notice :=
  .start ⟨wordField k.1, wordField k.2.1, byteField it.group.val, byteField it.cls.code, byteField (it.breakId.getD 0),
    timeField (some st), timeField (some (addAir st (min it.segue x.endPos))), timeField (some (addAir st x.endPos))⟩

/-- The START of an item depends on what the announcements leave alone. -/
theorem State.startOf_congr (h : s.SameItems x) (d : DeckNo) : x.startOf d = s.startOf d := by
  have hdeck := State.deck_congr h.1 d
  unfold State.startOf
  rw [hdeck]
  split
  · rename_i tag it st _ _ _ _
    have hkey := State.find_key h tag
    have hmap (o : Option CueRecord) : (o.map fun r => startNotice r (s.deck d) it st)
        = (o.map CueRecord.key).map (startNoticeOf (s.deck d) it st) := by cases o <;> rfl
    rw [hmap, hmap, hkey]
  · rfl

theorem State.announceItem_bus (h : s.SameItems x) (d : DeckNo) : (x.announceItem d).bus = x.busAfter (s.startOf d) := by
  rw [← State.startOf_congr h]
  obtain ⟨heq, hnone⟩ | ⟨tag, it, st, r, -, -, hsome, heq⟩ := x.announceItem_cases d
  · rw [heq, hnone]
    rfl
  · rw [heq, hsome]
    rfl

/-- The record of a tag is marked. -/
def State.Marked (s : State) (tag : Nat) : Prop := ∃ r, s.find tag = some r ∧ r.airedLive = true ∧ r.flags.takenMid = true

theorem State.marked_modRecord {tag tag' : Nat} (h : s.Marked tag) : (s.modRecord tag' CueRecord.taken).Marked tag := by
  obtain ⟨r, hr, haired, hmid⟩ := h
  have hf (y : CueRecord) : (if y.tag = tag' then y.taken else y).tag = y.tag := by split <;> rfl
  have hfind : (s.modRecord tag' CueRecord.taken).find tag = some (if r.tag = tag' then r.taken else r) := by
    unfold State.find State.modRecord at *
    dsimp only
    rw [List.find?_map]
    have hcomp : ((fun y : CueRecord => y.tag == tag) ∘ fun y => if y.tag = tag' then y.taken else y) = fun y => y.tag == tag := by
      funext y
      dsimp only [Function.comp]
      rw [hf]
    rw [hcomp, hr, Option.map_some]
  refine ⟨_, hfind, ?_⟩
  split
  · exact ⟨rfl, rfl⟩
  · exact ⟨haired, hmid⟩

theorem State.Marked.announceItem {tag : Nat} (h : x.Marked tag) (d : DeckNo) : (x.announceItem d).Marked tag := by
  obtain ⟨heq, -⟩ | ⟨tag', it, st, r, -, -, -, heq⟩ := x.announceItem_cases d
  · rw [heq]
    exact h
  · rw [heq]
    refine State.marked_modRecord ?_
    rw [State.hand_frame]
    exact h

theorem State.marked_announceItem {tag : Nat} (hb : (x.deck d).bound = some tag) (h : (x.startOf d).isSome = true) :
    (x.announceItem d).Marked tag := by
  obtain ⟨-, hnone⟩ | ⟨tag', it, st, r, hb', hfind, -, heq⟩ := x.announceItem_cases d
  · rw [hnone] at h
    exact nomatch h
  · obtain rfl : tag = tag' := Option.some.inj (hb.symm.trans hb')
    rw [heq]
    have hfind' : (x.hand (startNotice r (x.deck d) it st)).find tag = some r := by
      rw [State.hand_frame]
      exact hfind
    exact ⟨_, State.find_modRecord hfind' CueRecord.taken fun _ => rfl, rfl, rfl⟩

/-- Announcing every deck marks the record of each sounding one. -/
theorem State.marked_foldl {tag : Nat} (hb : (s.deck d).bound = some tag) (h : (s.startOf d).isSome = true) (l : List DeckNo)
    (hx : s.SameItems x) (hmarked : d ∈ l ∨ x.Marked tag) :
    (l.foldl State.announceItem x).Marked tag ∧ s.SameItems (l.foldl State.announceItem x) := by
  induction l generalizing x with
  | nil => exact ⟨hmarked.elim (fun k => absurd k List.not_mem_nil) id, hx⟩
  | cons e l ih =>
    refine ih (hx.announceItem e) ?_
    obtain hmem | hmarked := hmarked
    · obtain rfl | hl := List.mem_cons.mp hmem
      · exact .inr (State.marked_announceItem (by rw [State.deck_congr hx.1]; exact hb) (by rw [State.startOf_congr hx]; exact h))
      · exact .inl hl
    · exact .inr (hmarked.announceItem e)

/-! ### Taking the air (R185, R186) -/

theorem State.sameItems_airTaken (s : State) : s.SameItems s.airTaken := by
  unfold State.SameItems State.airTaken
  dsimp only
  exact ⟨rfl, rfl⟩

theorem State.airTaken_bus (s : State) : s.airTaken.bus = s.bus := by
  unfold State.airTaken
  dsimp only

theorem State.airTaken_mix (s : State) : s.airTaken.mix = { s.mix with gate := s.mix.gate.openRequest } := by
  unfold State.airTaken
  rfl

theorem State.airTaken_requests (s : State) : s.airTaken.mix.requests = s.mix.requests := by rw [State.airTaken_mix]

theorem State.startOf_isNotice {n : Notice} (h : s.startOf d = some n) : n.isStatus = false ∧ (s.deck d).sounding = true := by
  unfold State.startOf at h
  split at h
  · rename_i hs _ _ _
    obtain ⟨r, -, rfl⟩ := Option.map_eq_some_iff.mp h
    exact ⟨rfl, hs⟩
  · exact nomatch h

theorem State.duckOf_isNotice {n : Notice} (h : s.duckOf d = some n) : n.isStatus = false := by
  obtain ⟨q, -, rfl⟩ := Option.map_eq_some_iff.mp h
  rfl

theorem State.SameItems.announced (h : s.SameItems x) : s.SameItems ((x.announceDucks false).announceTaken) := by
  unfold State.SameItems
  rw [State.announceTaken, State.setInterval_decks, State.setInterval_records, State.hand_frame, State.announceDucks_frame,
    State.withLine_decks, State.withLine_records, State.withLine_decks, State.withLine_records]
  exact h

/-- TAKEN behind the DUCKs of all requests, with room for all. -/
theorem State.announceTaken_queue (hempty : s.bus.queue = []) (hroom : (allDecks.countP fun e => s.mix.requests[e].isSome) ≤ 7) :
    (s.announceDucks false).announceTaken.bus.queue.length ≤ (allDecks.countP fun e => s.mix.requests[e].isSome) + 1
      ∧ (∃ q ∈ (s.announceDucks false).announceTaken.bus.queue, q.notice = .taken)
      ∧ (∀ e n, s.duckOf e = some n → ∃ q ∈ (s.announceDucks false).announceTaken.bus.queue, q.notice = n) := by
  have hducks : allDecks.countP (fun e => (s.duckOf e).isSome) = allDecks.countP fun e => s.mix.requests[e].isSome := by
    refine List.countP_congr fun e _ => ?_
    rw [State.duckOf, Option.isSome_map]
  have hfits : s.bus.queue.length + allDecks.countP (fun e => (s.duckOf e).isSome) ≤ 8 := by
    rw [hempty, hducks, List.length_nil, Nat.zero_add]
    exact hroom.trans (by decide)
  obtain ⟨hlen, -, hqueued⟩ := State.foldl_hands (f := State.announceDuck) (note := s.duckOf)
    (I := fun x => x.mix.requests = s.mix.requests) (x := s)
    (fun x e hx => (congrArg Mix.requests (x.announceDuck_mix e)).trans hx)
    (fun x e hx => (x.announceDuck_bus e).trans (by rw [State.duckOf, State.duckOf, hx]))
    (fun e n hn => State.duckOf_isNotice hn) allDecks rfl hfits
  rw [← State.announceDucks_eq] at hlen hqueued
  rw [hempty, hducks, List.length_nil, Nat.zero_add] at hlen
  generalize s.announceDucks false = y at hlen hqueued ⊢
  generalize allDecks.countP (fun e => s.mix.requests[e].isSome) = k at hroom hlen ⊢
  have hannounced : y.announceTaken.bus = y.bus.join .taken := by
    rw [State.announceTaken, State.setInterval_bus, State.bus_hand_room (by omega) rfl]
  have hone : (y.bus.join .taken).queue.length = y.bus.queue.length + 1 := (insertQueued_perm _ _).length_eq
  rw [hannounced]
  refine ⟨by omega, ⟨_, mem_insertQueued.mpr (.inl rfl), rfl⟩, fun e n hn => ?_⟩
  obtain ⟨q, hq, hqn⟩ := hqueued e (mem_allDecks e) n hn
  exact ⟨q, mem_insertQueued.mpr (.inr hq), hqn⟩

/-- What is queued when everything that sounds or ducks is announced, with room for all (R104, R185). -/
theorem State.announced_queue (hsame : s.SameItems x) (hempty : x.bus.queue = [])
    (hroom : (allDecks.countP fun e => x.mix.requests[e].isSome) + (allDecks.countP fun e => (s.deck e).sounding) ≤ 7) :
    (∃ q ∈ (allDecks.foldl State.announceItem (x.announceDucks false).announceTaken).bus.queue, q.notice = .taken)
      ∧ (∀ e n, s.startOf e = some n →
        ∃ q ∈ (allDecks.foldl State.announceItem (x.announceDucks false).announceTaken).bus.queue, q.notice = n)
      ∧ (∀ e n, x.duckOf e = some n →
        ∃ q ∈ (allDecks.foldl State.announceItem (x.announceDucks false).announceTaken).bus.queue, q.notice = n) := by
  have hstarts : allDecks.countP (fun e => (s.startOf e).isSome) ≤ allDecks.countP fun e => (s.deck e).sounding := by
    refine List.countP_mono_left fun e _ h => ?_
    obtain ⟨n, hn⟩ := Option.isSome_iff_exists.mp h
    exact (State.startOf_isNotice hn).2
  obtain ⟨hlen, ⟨q, hq, htaken⟩, hducks⟩ := State.announceTaken_queue hempty (by omega)
  have hannounced := hsame.announced
  generalize (x.announceDucks false).announceTaken = y at hlen hq hducks hannounced ⊢
  obtain ⟨-, hkept, hitems⟩ := State.foldl_hands (f := State.announceItem) (note := s.startOf) (I := s.SameItems) (x := y)
    (fun x e hx => hx.announceItem e) (fun x e hx => State.announceItem_bus hx e)
    (fun e n hn => (State.startOf_isNotice hn).1) allDecks hannounced (by omega)
  refine ⟨⟨q, hkept q hq, htaken⟩, fun e n hn => hitems e (mem_allDecks e) n hn, fun e n hn => ?_⟩
  obtain ⟨q, hq, hqn⟩ := hducks e n hn
  exact ⟨q, hkept q hq, hqn⟩

theorem State.answerSetAside_records (s : State) : s.answerSetAside.records = s.records.map fun r => { r with setAside := false } := rfl

theorem State.answerSetAside_bus (s : State) : s.answerSetAside.bus = s.bus := rfl

theorem State.answerSetAside_work (s : State) : s.answerSetAside.work
    = s.work ++ (s.records.filter fun r => r.unstarted && r.setAside).map fun r => .trigger r.tag := by
  unfold State.answerSetAside
  rw [State.emit_work, List.map_map]
  rfl

/-- The unstarted records with a mark are the same before and after the announcements. -/
theorem State.SameItems.setAside (h : s.SameItems x) : ((x.records.filter fun r => r.unstarted && r.setAside).map fun r => Task.trigger r.tag)
    = (s.records.filter fun r => r.unstarted && r.setAside).map fun r => Task.trigger r.tag := by
  have hkey (y : State) : ((y.records.filter fun r => r.unstarted && r.setAside).map fun r => Task.trigger r.tag)
      = ((y.records.map CueRecord.key).filter fun k => k.2.2.1.unstarted && k.2.2.2).map fun k => Task.trigger k.1 := by
    rw [List.filter_map, List.map_map]
    rfl
  rw [hkey, hkey, h.2]

theorem State.SameItems.tags (h : s.SameItems x) : x.tags = s.tags := by
  have hkey (y : State) : y.tags = (y.records.map CueRecord.key).map fun k => k.1 := by
    rw [List.map_map]
    rfl
  rw [hkey, hkey, h.2]

theorem State.airAnnounced_work (s : State) : s.airAnnounced.work = s.work := by
  obtain ⟨x, hx⟩ := s.airTaken.announced_frame
  rw [State.airAnnounced, hx]
  exact s.airTaken.setInterval_work .takenWindow 48000

/-- Settles O39: the marks of the items announced, the set-aside marks answered, the notices queued. -/
theorem takingTheAirMarksWhatSounds : Obligations.TakingTheAirMarksWhatSounds := by
  intro s d tag r it st hs hb hit hst hfind
  have hstart : s.startOf d = some (startNotice r (s.deck d) it st) := by
    simp only [State.startOf, hs, hb, hit, hst, hfind, Option.map_some]
  obtain ⟨⟨y, hy, haired, hmid⟩, hsame⟩ := State.marked_foldl hb (by rw [hstart]; rfl) allDecks s.sameItems_airTaken.announced (.inl (mem_allDecks d))
  have hkey := State.find_key hsame tag
  have hannounced : allDecks.foldl State.announceItem ((s.airTaken.announceDucks false).announceTaken) = s.airAnnounced := rfl
  rw [hannounced] at hy hsame hkey
  rw [hy, hfind, Option.map_some, Option.map_some] at hkey
  have hstate : y.state = r.state := congrArg (fun k : Nat × Nat × RecState × Bool => k.2.2.1) (Option.some.inj hkey)
  refine ⟨⟨{ y with setAside := false }, ?_, haired, hmid, hstate⟩, fun z hz => ?_, s.takeAir_decks, ?_, ?_, fun hempty hroom => ?_⟩
  · rw [State.takeAir_eq, State.find, State.answerSetAside_records, List.find?_map]
    exact congrArg (Option.map _) hy
  · rw [State.takeAir_eq, State.answerSetAside_records] at hz
    obtain ⟨w, -, rfl⟩ := List.mem_map.mp hz
    rfl
  · rw [State.takeAir_eq, State.tags, State.answerSetAside_records, List.map_map]
    exact hsame.tags
  · rw [State.takeAir_eq, State.answerSetAside_work, hsame.setAside, State.airAnnounced_work]
  · obtain ⟨htaken, hstarts, hducks⟩ := State.announced_queue s.sameItems_airTaken (by rw [State.airTaken_bus]; exact hempty)
      (by rw [State.airTaken_requests]; exact hroom)
    rw [hannounced] at htaken hstarts hducks
    rw [State.takeAir_eq, State.answerSetAside_bus]
    have htag : r.tag = tag := State.find_tag hfind
    refine ⟨htaken, ?_, fun e q hq => ?_⟩
    · rw [← htag]
      exact hstarts d _ hstart
    · exact hducks e (duckNotice q q.depth) (by rw [State.duckOf, State.airTaken_requests, hq]; rfl)

end Sys2Proof.Machine
end


section
/-! What makes a fit run: the break a record belongs to, and what its start, arrival, fetch and departure tell the fitter. -/

namespace Sys2Proof.Machine

variable {s t u : State} {d : DeckNo}

/-- The entry that holds an id carries it. -/
theorem State.entryOf_some {id : Nat} {e : EntryNo} (h : s.entryOf id = some e) :
    (s.entry e).holdsId = true ∧ (s.entry e).id = id := by
  have hq := List.find?_some h
  simpa using hq

/-- A record on the group of the break that holds its id belongs to that break. -/
theorem State.entryOfRecord_group {r : CueRecord} {id : Nat} {e : EntryNo} (hid : r.breakId = some id)
    (he : s.entryOf id = some e) (hg : (s.entry e).group = r.group) : s.entryOfRecord r = some e := by
  simp only [State.entryOfRecord, hid, he, Option.filter, hg]
  simp

/-- A record without an id that a break holds belongs to none. -/
theorem State.entryOfRecord_none {r : CueRecord} (h : r.breakId = none ∨ ∃ id, r.breakId = some id ∧ s.entryOf id = none) :
    s.entryOfRecord r = none := by
  obtain h | ⟨id, hid, he⟩ := h
  · simp only [State.entryOfRecord, h]
  · simp only [State.entryOfRecord, hid, he, Option.filter]

/-- A record with the id and group of a break, and not its fill tag, is a member. -/
theorem BreakEntry.isMember_of {b : BreakEntry} {r : CueRecord} (hid : r.breakId = some b.id) (hg : b.group = r.group)
    (ht : r.tag ≠ 65280 + b.id) : b.isMember r = true := by
  simp [BreakEntry.isMember, hid, hg, fillTag, ht]

/-- A record of a held break: what its start, its arrival and its fetch do, by the state of the break. -/
theorem State.member_tells {tag id : Nat} {r : CueRecord} {e : EntryNo} (hf : s.find tag = some r) (hid : r.breakId = some id)
    (he : s.entryOf id = some e) (hg : (s.entry e).group = r.group) :
    ((s.entry e).state = .declared → r.tag ≠ 65280 + (s.entry e).id →
      s.memberStarted tag = (s.setEntry e { s.entry e with state := .running }).emit [.fit e]
      ∧ s.memberJoined tag = s ∧ s.memberReady tag = s)
    ∧ ((s.entry e).state = .running →
      s.memberStarted tag = s.emit [.fit e] ∧ s.memberJoined tag = s.emit [.fit e] ∧ s.memberReady tag = s.emit [.fit e])
    ∧ ((s.entry e).state = .ended → s.memberJoined tag = s.depart tag ⟨.dropped, .noFit⟩ ∧ s.memberStarted tag = s) := by
  have hr : s.entryOfRecord r = some e := State.entryOfRecord_group hid he hg
  obtain ⟨-, hb⟩ := State.entryOf_some he
  refine ⟨fun hst ht => ?_, fun hst => ?_, fun hst => ?_⟩
  · have hm : (s.entry e).isMember r = true := BreakEntry.isMember_of (by rw [hid, hb]) hg ht
    refine ⟨?_, ?_, ?_⟩
    · simp only [State.memberStarted, hf, hr, hst, hm, if_true, State.modEntry]
    · simp only [State.memberJoined, hf, hr, hst]
    · simp only [State.memberReady, hf, hr, hst, reduceCtorEq, if_false]
  · refine ⟨?_, ?_, ?_⟩
    · simp only [State.memberStarted, hf, hr, hst]
    · simp only [State.memberJoined, hf, hr, hst]
    · simp only [State.memberReady, hf, hr, hst, if_true]
  · refine ⟨?_, ?_⟩
    · simp only [State.memberJoined, hf, hr, hst]
    · simp only [State.memberStarted, hf, hr, hst]

/-- A record of no break is no concern of the fitter. -/
theorem State.member_silent {tag : Nat} {r : CueRecord} (hf : s.find tag = some r)
    (h : r.breakId = none ∨ ∃ id, r.breakId = some id ∧ s.entryOf id = none) :
    s.memberStarted tag = s ∧ s.memberJoined tag = s ∧ s.memberReady tag = s := by
  have hr : s.entryOfRecord r = none := State.entryOfRecord_none h
  refine ⟨?_, ?_, ?_⟩
  · simp only [State.memberStarted, hf, hr]
  · simp only [State.memberJoined, hf, hr]
  · simp only [State.memberReady, hf, hr]

/-- What leaves a RUNNING break, on its group or as its fill, runs a fit; what leaves any other runs none. -/
theorem State.memberLeft_eq {id : Nat} {e : EntryNo} (he : s.entryOf id = some e) (g : Group) (fill : Bool) (gone : List Nat) :
    s.memberLeft id g fill gone
      = if (s.entry e).state = .running ∧ ((s.entry e).group = g ∨ fill = true) then s.fitWithout e gone else s := by
  simp only [State.memberLeft, he]

/-- A waited-for fill fetch leaves FAILED, or READY with a fit, or is asked for again when it is stale. -/
theorem State.fillFetched_waiting {e : EntryNo} (hw : (s.entry e).fillState = .waiting) :
    (∀ why, s.fillFetched e false (.failed why) = s.setEntry e { s.entry e with fillState := .failed })
    ∧ (∀ sn, s.fillFetched e false (.snapshot sn)
        = (s.setEntry e { s.entry e with fillState := .ready, fillSnapshot := some sn }).emit [.fit e])
    ∧ ∀ o, s.fillFetched e true o = s.askFillFetch e := by
  refine ⟨fun why => ?_, fun sn => ?_, fun o => ?_⟩
  · simp only [State.fillFetched, hw, if_true, Bool.false_eq_true, if_false, State.modEntry]
  · simp only [State.fillFetched, hw, if_true, Bool.false_eq_true, if_false, State.modEntry]
  · simp only [State.fillFetched, hw, if_true]

/-- Settles O36: the entry of a record is found once, and each event acts by that entry's state. -/
theorem membersRunTheFits : Obligations.MembersRunTheFits := by
  unfold Obligations.MembersRunTheFits
  refine ⟨fun s tag id r e hf hid he hg => State.member_tells hf hid he hg, fun s tag r hf h => State.member_silent hf h,
    fun s id g fill => ⟨fun hn => ?_, fun e he => ⟨fun hst hg => ?_, fun h => ?_⟩⟩, fun s e o => ⟨fun hw stale => ?_, fun hw => ?_⟩⟩
  · simp only [State.memberLeft, hn]
  · rw [State.memberLeft_eq he, if_pos ⟨hst, hg⟩, State.fit]
  · rw [State.memberLeft_eq he, if_neg]
    rintro ⟨hst, hg⟩
    obtain hne | ⟨hne, hfill⟩ := h
    · exact hne hst
    · simp_all
  · simp only [State.fillFetched, hw, if_false]
  · obtain ⟨hfail, hready, hstale⟩ := State.fillFetched_waiting hw
    exact ⟨hfail, hready, hstale o⟩

end Sys2Proof.Machine
end


section
/-! The declaration of a break: the entry that is taken, a new break, and a re-declaration. -/

namespace Sys2Proof.Machine

variable {s t u : State} {d : DeckNo}

/-! ### Finding an entry -/

/-- The first entry that meets a test is the lowest. -/
theorem find_allEntries {p : EntryNo → Bool} {e : EntryNo} (hp : p e = true) (hlow : ∀ i : EntryNo, i < e → p i = false) :
    allEntries.find? p = some e := by
  have hget : ∀ i : Fin 8, allEntries[i.val] = i := by decide
  rw [List.find?_eq_some_iff_getElem]
  refine ⟨hp, e.val, e.isLt, hget e, fun j hj => ?_⟩
  have hj8 : j < 8 := hj.trans e.isLt
  rw [hget ⟨j, hj8⟩, hlow ⟨j, hj8⟩ hj]
  rfl

theorem find_allEntries_none {p : EntryNo → Bool} (h : ∀ i : EntryNo, p i = false) : allEntries.find? p = none := by
  rw [List.find?_eq_none]
  intro i _ hi
  rw [h i] at hi
  cases hi

theorem State.entryOf_lowest {id : Nat} {e : EntryNo} (hh : (s.entry e).holdsId = true) (hid : (s.entry e).id = id)
    (hlow : ∀ i : EntryNo, i < e → ¬ ((s.entry i).holdsId = true ∧ (s.entry i).id = id)) : s.entryOf id = some e :=
  find_allEntries (by simp [hh, hid]) fun i hi => by simpa using hlow i hi

theorem State.entryOf_none {id : Nat} (h : ∀ i : EntryNo, ¬ ((s.entry i).holdsId = true ∧ (s.entry i).id = id)) :
    s.entryOf id = none :=
  find_allEntries_none fun i => by simpa using h i

/-- A new break takes the lowest FREE entry, with none FREE the lowest ENDED one whose id hold is clear. -/
theorem State.entryForBreak_lowest {e : EntryNo}
    (h : (s.entry e).state = .free ∧ (∀ i : EntryNo, i < e → (s.entry i).state ≠ .free)
      ∨ (∀ i : EntryNo, (s.entry i).state ≠ .free) ∧ (s.entry e).state = .ended ∧ (s.entry e).idHold = false
        ∧ ∀ i : EntryNo, i < e → ¬ ((s.entry i).state = .ended ∧ (s.entry i).idHold = false)) :
    s.entryForBreak = some e := by
  unfold State.entryForBreak
  obtain ⟨hfree, hlow⟩ | ⟨hnone, hst, hhold, hlow⟩ := h
  · rw [find_allEntries (e := e) (by simp [hfree]) fun i hi => by simpa using hlow i hi]
  · rw [find_allEntries_none fun i => by simpa using hnone i]
    exact find_allEntries (by simp [hst, hhold]) fun i hi => by simpa using hlow i hi

/-- With every entry held a new break finds none. -/
theorem State.entryForBreak_held (h : ∀ i : EntryNo, (s.entry i).holdsId = true) : s.entryForBreak = none := by
  have hst (i : EntryNo) : (s.entry i).state ≠ .free ∧ ((s.entry i).state = .ended → (s.entry i).idHold = true) := by
    have hi := h i
    unfold BreakEntry.holdsId at hi
    cases hc : (s.entry i).state <;> simp_all
  unfold State.entryForBreak
  rw [find_allEntries_none fun i => by simpa using (hst i).1]
  refine find_allEntries_none fun i => ?_
  by_cases hc : (s.entry i).state = .ended
  · simp [hc, (hst i).2 hc]
  · simp [hc]

/-! ### Expiries, fetches and entries under a declaration -/

theorem State.setAir_eq (s : State) (h : AirHandle) (n : Nat) :
    s.setAir h n = s.withAir (airSet s.now h s.airExpiries (some n)) (s.work ++ airFires s.now h (some n)) := s.setAirOpt_eq h (some n)

theorem State.setEntry_setEntry (s : State) (e : EntryNo) (x y : BreakEntry) : (s.setEntry e x).setEntry e y = s.setEntry e y := by
  simp only [State.setEntry]
  congr 2
  exact Vector.set_set ..

theorem State.askFillFetch_frame (s : State) (e : EntryNo) : s.askFillFetch e = s.withReader (s.askFillFetch e) := by
  unfold State.askFillFetch
  split <;> rfl

/-- A changed fill: the entry takes the cart, and only the reader changes with it. -/
theorem State.changeFill_eq (s : State) (e : EntryNo) (fill : Option Nat) :
    s.changeFill e fill = (s.setEntry e { s.entry e with
      fillCart := fill, fillSnapshot := none, fillState := if fill.isSome then .waiting else .none }).withReader
        (s.changeFill e fill) := by
  unfold State.changeFill State.modEntry
  dsimp only
  generalize s.setEntry e _ = x
  split
  · rfl
  · split
    · cases fill with
      | none => exact x.withdrawFetch_frame _
      | some c => rfl
    · split
      · exact x.askFillFetch_frame e
      · rfl

/-- The entry of a newly declared break (R124, R126). -/
def newBreak (id : Nat) (g : Group) (rejoin : Nat) (fill : Option Nat) : BreakEntry :=
  { state := .declared, id := id, group := g, rejoin := rejoin, fillCart := fill
    fillState := if fill.isSome then .waiting else .none }

/-- A new break: its entry, the reader's fetch, and the guard. -/
theorem State.declare_eq (s : State) (e : EntryNo) (id : Nat) (g : Group) (rejoin : Nat) (fill : Option Nat) :
    (s.declare e id g rejoin fill).entry e = newBreak id g rejoin fill
      ∧ (∀ i : EntryNo, i ≠ e → (s.declare e id g rejoin fill).entry i = s.entry i)
      ∧ (s.declare e id g rejoin fill).records = s.records ∧ (s.declare e id g rejoin fill).decks = s.decks
      ∧ (s.declare e id g rejoin fill).log = s.log := by
  have hfill : ∃ v : State, (if fill.isSome then
      (s.setEntry e { state := .declared, id := id, group := g, rejoin := rejoin, fillCart := fill }).wantFill e
        else s.setEntry e { state := .declared, id := id, group := g, rejoin := rejoin, fillCart := fill })
      = (s.setEntry e (newBreak id g rejoin fill)).withReader v := by
    cases fill with
    | none => exact ⟨s, rfl⟩
    | some c =>
      simp only [Option.isSome_some, if_true, State.wantFill, State.modEntry, State.entry_setEntry_self, State.setEntry_setEntry]
      exact ⟨_, State.askFillFetch_frame _ _⟩
  obtain ⟨v, hv⟩ := hfill
  unfold State.declare
  dsimp only
  rw [hv, State.setAir_eq]
  exact ⟨s.entry_setEntry_self e _, fun i hi => s.entry_setEntry_ne _ _ _ hi.symm, rfl, rfl, rfl⟩

/-- A re-declaration: the entry, the guard moved, the fill with its fetch, then a fit. -/
theorem State.redeclare_eq (s : State) (e : EntryNo) (rejoin : Nat) (fill : Option Nat) :
    ∃ x : State, s.redeclare e rejoin fill = x.emit [.fit e]
      ∧ x.entry e = (if (s.entry e).fillCart = fill then { s.entry e with rejoin := rejoin } else
          { s.entry e with
            rejoin := rejoin, fillCart := fill, fillSnapshot := none, fillState := if fill.isSome then .waiting else .none })
      ∧ ((s.entry e).fillCart = fill → x.reader = s.reader)
      ∧ x.airExpiries = airSet s.now (.rejoin e) s.airExpiries (some rejoin)
      ∧ x.work = s.work ++ airFires s.now (.rejoin e) (some rejoin)
      ∧ (∀ i : EntryNo, i ≠ e → x.entry i = s.entry i) ∧ x.records = s.records ∧ x.decks = s.decks ∧ x.log = s.log := by
  have hentry (l : List AirExpiry) (ts : List Task) (x : BreakEntry) : ((s.setEntry e x).withAir l ts).entry e = x :=
    s.entry_setEntry_self e x
  unfold State.redeclare State.modEntry
  dsimp only
  rw [State.setAir_eq, hentry]
  dsimp only
  by_cases hsame : (s.entry e).fillCart = fill
  · rw [if_pos hsame, if_pos hsame]
    exact ⟨_, rfl, hentry _ _ _, fun _ => rfl, rfl, rfl, fun i hi => s.entry_setEntry_ne _ _ _ hi.symm, rfl, rfl, rfl⟩
  · rw [if_neg hsame, if_neg hsame, State.changeFill_eq, hentry]
    generalize State.changeFill _ _ _ = v
    refine ⟨_, rfl, ?_, fun h => absurd h hsame, rfl, rfl, fun i hi => ?_, rfl, rfl, rfl⟩
    · exact State.entry_setEntry_self _ _ _
    · exact (State.entry_setEntry_ne _ _ _ _ hi.symm).trans (s.entry_setEntry_ne _ _ _ hi.symm)

/-! ### A BREAK by its fields -/

theorem readNonzero_eq (n : Nat) : readNonzero n = if n = 0 then none else some n := rfl

theorem readGroup_some {n : Nat} (h : n ≤ 3) : readGroup n = some (Fin.ofNat 4 n) := by
  have hlt : n < 4 := by omega
  rw [readGroup, dif_pos hlt]
  exact congrArg some (Fin.ext (Nat.mod_eq_of_lt hlt).symm)

theorem ofNat_ne_zero {n : Nat} (h1 : 1 ≤ n) (h3 : n ≤ 3) : Fin.ofNat 4 n ≠ (0 : Group) := by
  intro h
  have hval : n % 4 = 0 := congrArg Fin.val h
  omega

/-- The rejoin time of a BREAK: the present one if it is due (R124). -/
def State.rejoinOf (s : State) (f : BreakFields) : Nat := if isDue f.rejoin.toNat s.now then s.now else f.rejoin.toNat

/-- The fields of a BREAK that is not ignored. -/
def goodBreak (f : BreakFields) : Prop :=
  f.id ≠ 0 ∧ 1 ≤ f.group.toNat ∧ f.group.toNat ≤ 3 ∧ f.rejoin.toNat < 4147200000

theorem goodBreak.not_ignored {f : BreakFields} (h : goodBreak f) :
    ¬ (Fin.ofNat 4 f.group.toNat = (0 : Group) ∨ f.id = 0 ∨ dayLength ≤ f.rejoin.toNat) := by
  obtain ⟨hid, hg1, hg3, hrejoin⟩ := h
  rintro (h | h | h)
  · exact ofNat_ne_zero hg1 hg3 h
  · exact hid h
  · exact absurd ((dayLength_le_iff _).mp h) (by omega)

/-- A BREAK for a held id acts by the entry's state. -/
theorem State.takeBreak_held {f : BreakFields} {e : EntryNo} (h : goodBreak f) (he : s.entryOf f.id.toNat = some e) :
    s.takeBreak f
      = if (s.entry e).state = .ended then s else s.redeclare e (s.rejoinOf f) (readNonzero f.fill.toNat) := by
  obtain ⟨-, -, hg3, -⟩ := id h
  simp only [State.takeBreak, readGroup_some hg3, if_neg h.not_ignored, he, State.rejoinOf]

/-- A BREAK for an id not held takes the entry of a new break. -/
theorem State.takeBreak_new {f : BreakFields} {e : EntryNo} (h : goodBreak f) (hnone : s.entryOf f.id.toNat = none)
    (he : s.entryForBreak = some e) :
    s.takeBreak f = s.declare e f.id.toNat (Fin.ofNat 4 f.group.toNat) (s.rejoinOf f) (readNonzero f.fill.toNat) := by
  obtain ⟨-, -, hg3, -⟩ := id h
  simp only [State.takeBreak, readGroup_some hg3, if_neg h.not_ignored, hnone, he, State.rejoinOf]

/-- With no entry to take a BREAK sets BREAK_FULL. -/
theorem State.takeBreak_full {f : BreakFields} (h : goodBreak f) (hnone : s.entryOf f.id.toNat = none)
    (he : s.entryForBreak = none) : s.takeBreak f = { s with breaks := { s.breaks with full := true } } := by
  obtain ⟨-, -, hg3, -⟩ := id h
  simp only [State.takeBreak, readGroup_some hg3, if_neg h.not_ignored, hnone, he]

/-- A BREAK with a field outside its range is ignored. -/
theorem State.takeBreak_bad (s : State) (f : BreakFields)
    (h : f.id = 0 ∨ f.group = 0 ∨ 3 < f.group.toNat ∨ 4147200000 ≤ f.rejoin.toNat) : s.takeBreak f = s := by
  unfold State.takeBreak
  dsimp only
  by_cases hg : f.group.toNat ≤ 3
  · rw [readGroup_some hg]
    dsimp only
    rw [if_pos]
    obtain h | h | h | h := h
    · exact .inr (.inl h)
    · exact .inl (by rw [h]; rfl)
    · omega
    · exact .inr (.inr ((dayLength_le_iff _).mpr h))
  · rw [readGroup, dif_neg (by omega)]

/-- A BREAK that is taken, as a command. -/
theorem exec_takeBreak {h : Header} (hs : s.Takes h) (f : BreakFields) :
    exec (.declareBreak h f) s = .next ((s.onHearing h).takeBreak f).finish := by
  obtain ⟨⟨hrun, -⟩, -⟩ := id hs
  rw [exec_declareBreak hrun, State.hearBreak, hs.heard]

theorem breaksAreDeclared_new {h : Header} {f : BreakFields} {e : EntryNo} (hs : s.Takes h) (hf : goodBreak f)
    (hnone : ∀ i : EntryNo, ¬ ((s.entry i).holdsId = true ∧ (s.entry i).id = f.id.toNat))
    (hentry : (s.entry e).state = .free ∧ (∀ i : EntryNo, i < e → (s.entry i).state ≠ .free)
      ∨ (∀ i : EntryNo, (s.entry i).state ≠ .free) ∧ (s.entry e).state = .ended ∧ (s.entry e).idHold = false
        ∧ ∀ i : EntryNo, i < e → ¬ ((s.entry i).state = .ended ∧ (s.entry i).idHold = false)) :
    ∃ x : State, exec (.declareBreak h f) s = .next x.finish
      ∧ x.entry e = newBreak f.id.toNat (Fin.ofNat 4 f.group.toNat) (s.rejoinOf f) (readNonzero f.fill.toNat)
      ∧ (∀ i : EntryNo, i ≠ e → x.entry i = s.entry i) ∧ x.records = s.records ∧ x.decks = s.decks ∧ x.log = s.log := by
  have hof : (s.onHearing h).entryOf f.id.toNat = none := State.entryOf_none hnone
  have hfor : (s.onHearing h).entryForBreak = some e := State.entryForBreak_lowest hentry
  have hexec : exec (.declareBreak h f) s = .next ((s.onHearing h).declare e f.id.toNat (Fin.ofNat 4 f.group.toNat)
      ((s.onHearing h).rejoinOf f) (readNonzero f.fill.toNat)).finish := by
    rw [exec_takeBreak hs, State.takeBreak_new hf hof hfor]
  exact ⟨_, hexec, (s.onHearing h).declare_eq e f.id.toNat _ _ _⟩

theorem breaksAreDeclared_again {h : Header} {f : BreakFields} {e : EntryNo} (hs : s.Takes h) (hf : goodBreak f)
    (hof : s.entryOf f.id.toNat = some e) (hst : (s.entry e).state ≠ .ended) :
    let r := s.rejoinOf f
    let fill := readNonzero f.fill.toNat
    ∃ x : State, exec (.declareBreak h f) s = .next (x.emit [.fit e]).finish
      ∧ x.entry e = (if (s.entry e).fillCart = fill then { s.entry e with rejoin := r } else
          { s.entry e with
            rejoin := r, fillCart := fill, fillSnapshot := none, fillState := if fill.isSome then .waiting else .none })
      ∧ ((s.entry e).fillCart = fill → x.reader = s.reader)
      ∧ x.airExpiries = (s.airExpiries.filter fun y => y.handle != .rejoin e) ++ (if isDue r s.now then [] else [⟨.rejoin e, r⟩])
      ∧ x.work = s.work ++ (if isDue r s.now then [.fired (.rejoin e) (lateness r s.now)] else [])
      ∧ (∀ i : EntryNo, i ≠ e → x.entry i = s.entry i) ∧ x.records = s.records ∧ x.decks = s.decks ∧ x.log = s.log := by
  intro r fill
  obtain ⟨x, hredeclare, hrest⟩ := (s.onHearing h).redeclare_eq e r fill
  have hof' : (s.onHearing h).entryOf f.id.toNat = some e := hof
  have hst' : ((s.onHearing h).entry e).state ≠ .ended := hst
  refine ⟨x, ?_, hrest⟩
  rw [exec_takeBreak hs, State.takeBreak_held hf hof', if_neg hst', show (s.onHearing h).rejoinOf f = r from rfl, hredeclare]

/-- Settles O35: by the entry that holds the id, else by the entry that a new break takes. -/
theorem breaksAreDeclared : Obligations.BreaksAreDeclared := by
  unfold Obligations.BreaksAreDeclared
  refine ⟨fun s h f e hs hid hg1 hg3 hrejoin hnone hentry => ?_, fun s h f e hs hid hg1 hg3 hrejoin hholds hsame hlow => ⟨?_, ?_⟩,
    fun s h f hs hrest => ⟨fun hbad => ?_, fun hid hg1 hg3 hrejoin hheld => ?_⟩⟩
  · obtain ⟨x, hx, hentry, hrest⟩ := breaksAreDeclared_new hs ⟨hid, hg1, hg3, hrejoin⟩ hnone hentry
    refine ⟨x, hx, hentry.trans ?_, hrest⟩
    simp only [newBreak, readNonzero_eq, State.rejoinOf]
    by_cases hfill : f.fill.toNat = 0
    · simp [hfill]
    · simp [hfill]
  · intro hst hrest
    have hof : (s.onHearing h).entryOf f.id.toNat = some e := State.entryOf_lowest hholds hsame hlow
    have hst' : ((s.onHearing h).entry e).state = .ended := hst
    rw [exec_takeBreak hs, State.takeBreak_held ⟨hid, hg1, hg3, hrejoin⟩ hof, if_pos hst', State.finish_atRest (hrest.onHearing h)]
  · intro hst
    exact breaksAreDeclared_again hs ⟨hid, hg1, hg3, hrejoin⟩ (State.entryOf_lowest hholds hsame hlow) hst
  · rw [exec_takeBreak hs, State.takeBreak_bad _ f hbad, State.finish_atRest (hrest.onHearing h)]
  · have hof : (s.onHearing h).entryOf f.id.toNat = none := State.entryOf_none fun i ⟨_, hi⟩ => (hheld i).2 hi
    have hfor : (s.onHearing h).entryForBreak = none := State.entryForBreak_held fun i => (hheld i).1
    rw [exec_takeBreak hs, State.takeBreak_full ⟨hid, hg1, hg3, hrejoin⟩ hof hfor]
    exact congrArg Host.Outcome.next (State.finish_atRest ((hrest.onHearing h).of_decks rfl rfl rfl))

end Sys2Proof.Machine
end


section
/-! What fits, overtakings and rejoin guards are made of: marks, bindings, truncations, records that leave and fills that join. What such
moves keep: a sounding item's fade, the records still to leave, the marks, and the room of the log. -/

namespace Sys2Proof.Machine

variable {s t u : State} {d : DeckNo}

/-! ### What is kept -/

/-- An item sounds on a deck of its own: the deck has a fade state and a duck request, the item's record alone names the deck, and the
deck alone is bound to it. -/
structure State.Sounds (s : State) (d : DeckNo) (tag : Nat) (x : Deck) (q : Option DuckRequest) : Prop where
  live : x.sounding = true
  state : (s.deck d).state = x.state
  fadeIn : (s.deck d).fadeIn = x.fadeIn
  fadeOut : (s.deck d).fadeOut = x.fadeOut
  bound : (s.deck d).bound = some tag
  request : s.mix.requests[d] = q
  only : ∀ e : DeckNo, (s.deck e).bound = some tag → e = d
  present : tag ∈ s.tags
  mine : ∀ v ∈ s.records, v.deck = some d → v.tag = tag
  sounding : ∀ v ∈ s.records, v.tag = tag → v.sounding = true

/-- Every record with a tag is unstarted. -/
def State.Waits (s : State) (tag : Nat) : Prop := ∀ v ∈ s.records, v.tag = tag → v.unstarted = true

/-- Every record with a tag is marked triggered. -/
def State.IsMarked (s : State) (tag : Nat) : Prop := ∀ v ∈ s.records, v.tag = tag → v.triggered = true

/-- The fields of a record that neither marks nor bindings change. -/
def CueRecord.core (r : CueRecord) : CueRecord := { r with state := .queued, deck := none, triggered := false, setAside := false }

theorem CueRecord.unstarted_not_sounding {r : CueRecord} (h : r.unstarted = true) : r.sounding = false := by
  have h' : r.state.unstarted = true := h
  rw [CueRecord.sounding, h']
  rfl

theorem CueRecord.sounding_not_unstarted {r : CueRecord} (h : r.sounding = true) : r.unstarted = false := by
  cases hu : r.unstarted with
  | false => rfl
  | true => exact absurd ((CueRecord.unstarted_not_sounding hu).symm.trans h) (by decide)

theorem State.mem_tags {tag : Nat} : tag ∈ s.tags ↔ ∃ r ∈ s.records, r.tag = tag := List.mem_map

theorem State.Sounds.not_waiting {tag : Nat} {x : Deck} {q : Option DuckRequest} (h : s.Sounds d tag x q) {v : CueRecord}
    (hv : v ∈ s.records) (hu : v.unstarted = true) : v.tag ≠ tag ∧ v.deck ≠ some d := by
  have htag : v.tag ≠ tag := fun ht => by
    have hs := h.sounding v hv ht
    rw [CueRecord.unstarted_not_sounding hu] at hs
    cases hs
  exact ⟨htag, fun hd => htag (h.mine v hv hd)⟩

/-- An item sounds on as long as nothing of it changes: other decks may, but for getting bound to it. -/
theorem State.Sounds.of_parts {tag : Nat} {x : Deck} {q : Option DuckRequest} (h : s.Sounds d tag x q)
    (hstate : (t.deck d).state = (s.deck d).state) (hin : (t.deck d).fadeIn = (s.deck d).fadeIn)
    (hout : (t.deck d).fadeOut = (s.deck d).fadeOut) (hbound : (t.deck d).bound = (s.deck d).bound)
    (hothers : ∀ e : DeckNo, (t.deck e).bound = some tag → (s.deck e).bound = some tag)
    (hrequest : t.mix.requests[d] = s.mix.requests[d]) (hpresent : tag ∈ t.tags)
    (hmine : ∀ v ∈ t.records, v.deck = some d → v.tag = tag)
    (hsounding : ∀ v ∈ t.records, v.tag = tag → v.sounding = true) : t.Sounds d tag x q where
  live := h.live
  state := hstate.trans h.state
  fadeIn := hin.trans h.fadeIn
  fadeOut := hout.trans h.fadeOut
  bound := hbound.trans h.bound
  request := hrequest.trans h.request
  only := fun e he => h.only e (hothers e he)
  present := hpresent
  mine := hmine
  sounding := hsounding

theorem State.Sounds.congr {tag : Nat} {x : Deck} {q : Option DuckRequest} (h : s.Sounds d tag x q) (hrecords : t.records = s.records)
    (hdecks : t.decks = s.decks) (hrequest : t.mix.requests[d] = s.mix.requests[d]) : t.Sounds d tag x q := by
  have hdeck := State.deck_congr hdecks
  refine h.of_parts (by rw [hdeck]) (by rw [hdeck]) (by rw [hdeck]) (by rw [hdeck]) (fun e he => by rwa [hdeck] at he) hrequest ?_ ?_ ?_
  · rw [State.tags, hrecords]
    exact h.present
  · rw [hrecords]
    exact h.mine
  · rw [hrecords]
    exact h.sounding

/-- Records changed one by one, a sounding one in nothing that matters to its deck. -/
theorem State.Sounds.map {tag : Nat} {x : Deck} {q : Option DuckRequest} (h : s.Sounds d tag x q) {f : CueRecord → CueRecord}
    (hrecords : t.records = s.records.map f) (htag : ∀ r, (f r).tag = r.tag)
    (hdeck : ∀ r ∈ s.records, (f r).deck = some d → r.deck = some d)
    (hkeep : ∀ r ∈ s.records, r.tag = tag → (f r).sounding = r.sounding)
    (hstate : (t.deck d).state = (s.deck d).state) (hin : (t.deck d).fadeIn = (s.deck d).fadeIn)
    (hout : (t.deck d).fadeOut = (s.deck d).fadeOut) (hbound : (t.deck d).bound = (s.deck d).bound)
    (hothers : ∀ e : DeckNo, (t.deck e).bound = some tag → (s.deck e).bound = some tag)
    (hrequest : t.mix.requests[d] = s.mix.requests[d]) : t.Sounds d tag x q := by
  refine h.of_parts hstate hin hout hbound hothers hrequest ?_ ?_ ?_
  · obtain ⟨r, hr, hrt⟩ := State.mem_tags.mp h.present
    exact State.mem_tags.mpr ⟨f r, hrecords ▸ List.mem_map_of_mem hr, (htag r).trans hrt⟩
  · rw [hrecords]
    intro v hv hd
    obtain ⟨r, hr, rfl⟩ := List.mem_map.mp hv
    exact (htag r).trans (h.mine r hr (hdeck r hr hd))
  · rw [hrecords]
    intro v hv ht
    obtain ⟨r, hr, rfl⟩ := List.mem_map.mp hv
    have hrt := (htag r).symm.trans ht
    exact (hkeep r hr hrt).trans (h.sounding r hr hrt)

/-! ### Marks and bindings -/

/-- A mark set on a record: triggered, or set aside. -/
def CueRecord.marks (f : CueRecord → CueRecord) : Prop :=
  f = (fun r => { r with triggered := true }) ∨ f = fun r => { r with setAside := true }

/-- One step in which records are only marked and bound. -/
inductive State.Shift (s t : State) : Prop where
  | rest (records : t.records = s.records) (decks : t.decks = s.decks) (requests : t.mix.requests = s.mix.requests)
      (breaks : t.breaks = s.breaks) (log : t.log = s.log)
  | mark (tag : Nat) (f : CueRecord → CueRecord) (hf : CueRecord.marks f) (ht : t = s.modRecord tag f)
  | bind (r : CueRecord) (sn : Snapshot) (d : DeckNo) (waits : ∃ v ∈ s.records, v.tag = r.tag ∧ v.unstarted = true)
      (idle : (s.deck d).state = .idle) (ht : t = s.bindRecord r sn d)
  | reclaim (v : CueRecord) (d : DeckNo) (mem : v ∈ s.records) (waits : v.unstarted = true) (hd : v.deck = some d)
      (ht : t = s.reclaim v d)

/-- Records are only marked and bound. -/
def State.Shifts (s t : State) : Prop := Relation.ReflTransGen State.Shift s t

theorem State.Shifts.refl (s : State) : s.Shifts s := Relation.ReflTransGen.refl

theorem State.Shift.many (h : s.Shift t) : s.Shifts t := Relation.ReflTransGen.single h

theorem State.Shifts.trans (h : s.Shifts t) (k : t.Shifts u) : s.Shifts u := Relation.ReflTransGen.trans h k

/-- What marks and bindings make of one record. -/
def CueRecord.Shifted (r v : CueRecord) : Prop :=
  v.core = r.core ∧ (r.triggered = true → v.triggered = true) ∧ (r.unstarted = true → v.unstarted = true)

theorem CueRecord.Shifted.tag {r v : CueRecord} (h : r.Shifted v) : v.tag = r.tag := (congrArg CueRecord.tag h.1 :)

theorem State.Shift.records (h : s.Shift t) : ∃ f, t.records = s.records.map f ∧ ∀ r : CueRecord, r.Shifted (f r) := by
  have hmod (tag : Nat) (f : CueRecord → CueRecord) (hf : ∀ r : CueRecord, r.Shifted (f r)) (r : CueRecord) :
      r.Shifted (if r.tag = tag then f r else r) := by
    split
    · exact hf r
    · exact ⟨rfl, id, id⟩
  cases h with
  | rest hrecords => exact ⟨id, by rw [hrecords, List.map_id], fun r => ⟨rfl, id, id⟩⟩
  | mark tag f hf ht =>
    subst ht
    refine ⟨_, rfl, hmod tag f fun r => ?_⟩
    obtain rfl | rfl := hf
    · exact ⟨rfl, fun _ => rfl, id⟩
    · exact ⟨rfl, id, id⟩
  | bind r sn d hwaits hidle ht =>
    subst ht
    exact ⟨_, rfl, hmod r.tag (fun u => { u with state := .bound, deck := some d }) fun r => ⟨rfl, id, fun _ => rfl⟩⟩
  | reclaim v d hmem hwaits hd ht =>
    subst ht
    obtain ⟨hrecords, -, -⟩ := s.reclaim_parts v d
    exact ⟨_, hrecords, hmod v.tag (fun u => { u with state := .queued, deck := none }) fun r => ⟨rfl, id, fun _ => rfl⟩⟩

theorem State.reclaim_requests (s : State) (v : CueRecord) (d : DeckNo) : (s.reclaim v d).mix = s.mix := by
  simp [State.reclaim, State.idleDeck, State.modDeck, State.abandonDeckRead]

theorem State.reclaim_log (s : State) (v : CueRecord) (d : DeckNo) : (s.reclaim v d).log = s.log := by
  simp [State.reclaim, State.idleDeck, State.modDeck, State.abandonDeckRead]

theorem State.reclaim_breaks (s : State) (v : CueRecord) (d : DeckNo) : (s.reclaim v d).breaks = s.breaks := by
  simp [State.reclaim, State.idleDeck, State.modDeck, State.abandonDeckRead]

theorem State.bindRecord_mix (s : State) (r : CueRecord) (sn : Snapshot) (d : DeckNo) : (s.bindRecord r sn d).mix = s.mix := by
  simp [State.bindRecord, State.modDeck]

theorem State.bindRecord_log (s : State) (r : CueRecord) (sn : Snapshot) (d : DeckNo) : (s.bindRecord r sn d).log = s.log := by
  simp [State.bindRecord, State.modDeck]

theorem State.bindRecord_breaks (s : State) (r : CueRecord) (sn : Snapshot) (d : DeckNo) :
    (s.bindRecord r sn d).breaks = s.breaks := by
  simp [State.bindRecord, State.modDeck]

theorem State.Shift.rests (h : s.Shift t) : t.log = s.log ∧ t.breaks = s.breaks ∧ t.mix.requests = s.mix.requests := by
  cases h with
  | rest _ _ hrequests hbreaks hlog => exact ⟨hlog, hbreaks, hrequests⟩
  | mark tag f hf ht => subst ht; exact ⟨rfl, rfl, rfl⟩
  | bind r sn d hwaits hidle ht =>
    subst ht
    exact ⟨s.bindRecord_log _ _ _, s.bindRecord_breaks _ _ _, congrArg Mix.requests (s.bindRecord_mix _ _ _)⟩
  | reclaim v d hmem hwaits hd ht =>
    subst ht
    exact ⟨s.reclaim_log _ _, s.reclaim_breaks _ _, congrArg Mix.requests (s.reclaim_requests _ _)⟩

/-- Marks and bindings leave a sounding item alone: they concern unstarted records, and decks that do not sound. -/
theorem State.Shift.sounds (k : s.Shift t) {tag : Nat} {x : Deck} {q : Option DuckRequest} (h : s.Sounds d tag x q) :
    t.Sounds d tag x q := by
  cases k with
  | rest hrecords hdecks hrequests _ _ => exact h.congr hrecords hdecks (by rw [hrequests])
  | mark m f hf ht =>
    subst ht
    have hkeep (r : CueRecord) : (f r).tag = r.tag ∧ (f r).deck = r.deck ∧ (f r).sounding = r.sounding := by
      obtain rfl | rfl := hf <;> exact ⟨rfl, rfl, rfl⟩
    refine h.map rfl (fun r => ?_) (fun r _ => ?_) (fun r _ _ => ?_) rfl rfl rfl rfl (fun _ => id) rfl
    · split
      · exact (hkeep r).1
      · rfl
    · split
      · rw [(hkeep r).2.1]
        exact id
      · exact id
    · split
      · exact (hkeep r).2.2
      · rfl
  | bind r sn e hwaits hidle ht =>
    subst ht
    obtain ⟨v, hv, hvt, hu⟩ := hwaits
    have hr : r.tag ≠ tag := hvt ▸ (h.not_waiting hv hu).1
    have he : e ≠ d := by
      rintro rfl
      have hx : x.state = .idle := h.state.symm.trans hidle
      have hlive := h.live
      rw [Deck.sounding, hx] at hlive
      cases hlive
    have hdeck := s.deck_bindRecord_ne r sn he
    refine h.map rfl (fun w => ?_) (fun w _ => ?_) (fun w _ hw => ?_) (by rw [hdeck]) (by rw [hdeck]) (by rw [hdeck]) (by rw [hdeck])
      (fun e' he' => ?_) (by rw [State.bindRecord_mix])
    · split <;> rfl
    · split
      · exact fun hd => absurd (Option.some.inj hd) he
      · exact id
    · rw [if_neg (fun h => hr (h.symm.trans hw))]
    · by_cases hee : e = e'
      · subst hee
        rw [State.deck_bindRecord_self] at he'
        exact absurd (Option.some.inj he') hr
      · rwa [State.deck_bindRecord_ne _ _ _ hee] at he'
  | reclaim v e hmem hwaits hd ht =>
    subst ht
    obtain ⟨hvt, hvd⟩ := h.not_waiting hmem hwaits
    have he : e ≠ d := fun he => hvd (by rw [hd, he])
    have hdeck := s.deck_reclaim_ne v he
    obtain ⟨hrecords, -, -⟩ := s.reclaim_parts v e
    refine h.map hrecords (fun w => ?_) (fun w _ => ?_) (fun w _ hw => ?_) (by rw [hdeck]) (by rw [hdeck]) (by rw [hdeck])
      (by rw [hdeck]) (fun e' he' => ?_) (by rw [State.reclaim_requests])
    · split <;> rfl
    · split
      · exact nofun
      · exact id
    · rw [if_neg (fun h => hvt (h.symm.trans hw))]
    · by_cases hee : e = e'
      · subst hee
        rw [State.deck_reclaim_self] at he'
        cases he'
      · rwa [State.deck_reclaim_ne _ _ hee] at he'

theorem State.Shifts.records (h : s.Shifts t) : ∃ f, t.records = s.records.map f ∧ ∀ r : CueRecord, r.Shifted (f r) := by
  induction h with
  | refl => exact ⟨id, (List.map_id _).symm, fun r => ⟨rfl, id, id⟩⟩
  | tail _ k ih =>
    obtain ⟨f, hf, hfs⟩ := ih
    obtain ⟨g, hg, hgs⟩ := k.records
    refine ⟨g ∘ f, by rw [hg, hf, List.map_map], fun r => ?_⟩
    obtain ⟨hcore, hmark, hun⟩ := hfs r
    obtain ⟨hcore', hmark', hun'⟩ := hgs (f r)
    exact ⟨hcore'.trans hcore, fun h => hmark' (hmark h), fun h => hun' (hun h)⟩

theorem State.Shifts.rests (h : s.Shifts t) : t.log = s.log ∧ t.breaks = s.breaks ∧ t.mix.requests = s.mix.requests := by
  induction h with
  | refl => exact ⟨rfl, rfl, rfl⟩
  | tail _ k ih =>
    obtain ⟨hlog, hbreaks, hrequests⟩ := k.rests
    obtain ⟨hlog', hbreaks', hrequests'⟩ := ih
    exact ⟨hlog.trans hlog', hbreaks.trans hbreaks', hrequests.trans hrequests'⟩

/-- Marks and bindings keep the tags in their order. -/
theorem State.Shifts.tags (h : s.Shifts t) : t.tags = s.tags := by
  obtain ⟨f, hf, hfs⟩ := h.records
  rw [State.tags, hf, List.map_map, State.tags]
  exact List.map_congr_left fun r _ => (hfs r).tag

/-! ### The operations that only mark and bind -/

theorem State.shift_emit (s : State) (ts : List Task) : s.Shift (s.emit ts) := .rest rfl rfl rfl rfl rfl

theorem State.shift_setAsideMark (s : State) (r : CueRecord) : s.Shifts (s.setAsideMark r) := by
  unfold State.setAsideMark
  split
  · exact .refl s
  · exact (State.Shift.mark r.tag _ (.inr rfl) rfl).many

theorem State.shift_markTriggered (s : State) (tag : Nat) : s.Shifts (s.markTriggered tag) :=
  (State.Shift.mark tag _ (.inl rfl) rfl).many

theorem State.shift_triggerLater (s : State) (tag : Nat) : s.Shifts (s.triggerLater tag) := by
  unfold State.triggerLater
  split
  · exact .refl s
  · split
    · exact .refl s
    · split
      · exact s.shift_setAsideMark _
      · split
        · exact s.shift_markTriggered tag
        · exact s.shift_markTriggered tag
        · exact (s.shift_emit _).many
        · exact (s.shift_emit _).many
        · exact .refl s
        · exact .refl s

theorem State.Shifts.ite {c : Prop} [Decidable c] (h : s.Shifts t) (k : s.Shifts u) : s.Shifts (if c then t else u) := by
  split
  · exact h
  · exact k

theorem State.shift_rejudge (s : State) (tag : Nat) : s.Shifts (s.rejudge tag) := by
  unfold State.rejudge
  split
  · exact .refl s
  · exact (s.shift_triggerLater tag).ite (.refl s)

theorem CueRecord.unstarted_of_queued {r : CueRecord} (h : r.state = .queued) : r.unstarted = true := by
  rw [CueRecord.unstarted, h]
  rfl

/-- The record that is bound next waits, and so does the one that gives up its deck. -/
theorem State.shift_bindOnce {gone : List Nat} (h : s.bindOnce gone = some t) : s.Shifts t := by
  unfold State.bindOnce at h
  split at h
  · cases h
  · rename_i r hr
    have hmem : r ∈ s.records := List.mem_of_find?_eq_some hr
    have hp := List.find?_some hr
    simp only [Bool.and_eq_true, beq_iff_eq] at hp
    obtain ⟨hq, -⟩ := hp
    have hu := CueRecord.unstarted_of_queued hq
    split at h
    · cases h
    · split at h
      · rename_i e he
        cases h
        have hi := List.find?_some he
        exact (State.Shift.bind r _ e ⟨r, hmem, rfl, hu⟩ (by simpa using hi) rfl).many
      · split at h
        · cases h
        · rename_i v hv
          have hvmem : v ∈ s.records := List.mem_reverse.mp (List.mem_of_find?_eq_some hv)
          have hvp := List.find?_some hv
          simp only [Bool.and_eq_true, Bool.or_eq_true, beq_iff_eq] at hvp
          obtain ⟨hvs, -⟩ := hvp
          have hvu : v.unstarted = true := by
            rw [CueRecord.unstarted]
            obtain hvs | hvs := hvs <;> rw [hvs] <;> rfl
          split at h
          · cases h
          · rename_i e he
            split at h
            · cases h
              refine (State.Shift.reclaim v e hvmem hvu he rfl).many.trans (State.Shift.bind r _ e ?_ ?_ rfl).many
              · obtain ⟨f, hf, hfs⟩ := (State.Shift.reclaim v e hvmem hvu he rfl).records
                obtain ⟨-, -, hun⟩ := hfs r
                exact ⟨f r, hf ▸ List.mem_map_of_mem hmem, (hfs r).tag, hun hu⟩
              · rw [State.deck_reclaim_self]
                rfl
            · cases h

theorem State.shift_bindHeld (gone : List Nat) (n : Nat) (s : State) : s.Shifts (s.bindHeld gone n) := by
  induction n generalizing s with
  | zero => exact .refl s
  | succ n ih =>
    unfold State.bindHeld
    split
    · exact .refl s
    · rename_i t ht
      exact (State.shift_bindOnce ht).trans (ih t)

/-- The judgement of a new AFTER_PREV record only marks it. -/
theorem State.shift_judgeNew (s : State) (tag : Nat) (h : ∀ r, s.find tag = some r → r.kind = .afterPrev) : s.Shifts (s.judgeNew tag) := by
  unfold State.judgeNew
  split
  · exact .refl s
  · rename_i r hr
    rw [h r hr]
    dsimp only
    split
    · split
      · exact s.shift_triggerLater tag
      · exact .refl s
    · exact .refl s

/-! ### Records that leave -/

/-- A break entry but for what its fill's leaving changes. -/
def BreakEntry.core (b : BreakEntry) : BreakEntry := { b with fillStatus := .unplaced, fillFade := none }

/-- A record has left: its tag, its deck, a log entry at most. -/
structure State.Removed (s t : State) (r : CueRecord) (tag : Nat) : Prop where
  records : t.records = s.records.filter fun x => x.tag != tag
  decks : ∀ e : DeckNo, t.deck e = s.deck e ∨ r.deck = some e ∧ (t.deck e).bound = none
  log : t.log.records.length ≤ s.log.records.length + 1
  entries : ∀ e : EntryNo, (t.entry e).core = (s.entry e).core
  statuses : (∀ id, r.breakId = some id → r.tag ≠ fillTag id) → t.breaks = s.breaks

theorem State.length_storeAsRun (s : State) (a : AsRun) : (s.storeAsRun a).log.records.length ≤ s.log.records.length + 1 := by
  by_cases h : s.log.records.length < 32
  · rw [(State.storeAsRun_room h a).records]
    simp
  · rw [(State.storeAsRun_full (by omega) a).records]
    exact Nat.le_succ _

theorem State.fillLeft_entries (s : State) (r : CueRecord) (byFit : Bool) (e : EntryNo) :
    ((s.fillLeft r byFit).entry e).core = (s.entry e).core := by
  unfold State.fillLeft
  split
  · rfl
  · split
    · split
      · rfl
      · rename_i i _
        by_cases hi : i = e
        · subst hi
          exact (congrArg BreakEntry.core (State.entry_setEntry_self _ _ _)).trans rfl
        · exact (congrArg BreakEntry.core (State.entry_setEntry_ne _ _ _ _ hi)).trans rfl
    · rfl

theorem State.fillLeft_breaks {r : CueRecord} (h : ∀ id, r.breakId = some id → r.tag ≠ fillTag id) (s : State) (byFit : Bool) :
    s.fillLeft r byFit = s := by
  unfold State.fillLeft
  split
  · rfl
  · rename_i id hid
    rw [if_neg (h id hid)]

theorem State.entry_congr (h : t.breaks = s.breaks) (e : EntryNo) : t.entry e = s.entry e := by rw [State.entry, h, State.entry]

/-- The break entries that a record's leaving finds: those from before it. -/
theorem State.recordGone_breaks (s : State) (r : CueRecord) (tag : Nat) (c : Cause) (byFit : Bool) :
    ∃ v : State, v.breaks = s.breaks ∧ s.recordGone r tag c byFit = v.fillLeft r byFit := by
  refine ⟨_, ?_, rfl⟩
  rw [State.withdrawFetch_frame]
  have hstored := s.storeAsRun_frame (s.asRunOf r c)
  generalize s.storeAsRun (s.asRunOf r c) = v at hstored ⊢
  rw [hstored]
  rfl

theorem State.removeRecord_removed {tag : Nat} {r : CueRecord} (h : s.find tag = some r) (c : Cause) (byFit : Bool) :
    s.Removed (s.removeRecord tag c byFit) r tag := by
  obtain ⟨hrecords, hlog, -, -⟩ := State.removeRecord_leaves h c byFit
  obtain ⟨v, hv, hgone⟩ := s.recordGone_breaks r tag c byFit
  obtain ⟨w, z, hframe⟩ := s.recordGone_frame r tag c byFit
  have hbreaks : (s.removeRecord tag c byFit).breaks = (v.fillLeft r byFit).breaks := by
    rw [State.removeRecord_eq h, hgone]
    cases r.deck with
    | none => rfl
    | some d =>
      obtain ⟨y, hfree⟩ := (v.fillLeft r byFit).freeDeck_frame d r.sounding
      dsimp only
      rw [hfree]
      rfl
  have hdecks (e : DeckNo) : (s.recordGone r tag c byFit).deck e = s.deck e := by
    rw [hframe]
    exact State.deck_congr (by simp only [State.withBreaks_decks, State.withReader_decks, State.without_decks, State.withLine_decks]) e
  refine ⟨hrecords, fun e => ?_, by rw [hlog]; exact s.length_storeAsRun _, fun e => ?_, fun hnot => ?_⟩
  · rw [State.removeRecord_eq h]
    cases r.deck with
    | none => exact .inl (hdecks e)
    | some d =>
      obtain ⟨y, hfree⟩ := (s.recordGone r tag c byFit).freeDeck_frame d r.sounding
      dsimp only
      rw [hfree, State.deck_congr (State.setTimer_decks _ _ _)]
      by_cases hd : d = e
      · subst hd
        refine .inr ⟨rfl, ?_⟩
        rw [State.deck_setDeck_self]
        cases r.sounding <;> rfl
      · left
        rw [State.deck_setDeck_ne _ _ _ _ hd]
        exact hdecks e
  · rw [State.entry_congr hbreaks, State.fillLeft_entries, State.entry_congr hv]
  · rw [hbreaks, State.fillLeft_breaks hnot, hv]

/-- A record that leaves takes no other's sounding item with it. -/
theorem State.Removed.sounds {r : CueRecord} {gone : Nat} (k : s.Removed t r gone) {tag : Nat} {x : Deck} {q : Option DuckRequest}
    (h : s.Sounds d tag x q) (hmix : t.mix.requests[d] = s.mix.requests[d]) (hne : gone ≠ tag) (hdeck : r.deck ≠ some d) :
    t.Sounds d tag x q := by
  have hd : t.deck d = s.deck d := by
    obtain hd | ⟨hr, -⟩ := k.decks d
    · exact hd
    · exact absurd hr hdeck
  have hmem {v : CueRecord} (hv : v ∈ t.records) : v ∈ s.records := by
    rw [k.records] at hv
    exact List.mem_of_mem_filter hv
  refine h.of_parts (by rw [hd]) (by rw [hd]) (by rw [hd]) (by rw [hd]) (fun e he => ?_) hmix ?_ (fun v hv => h.mine v (hmem hv))
    (fun v hv => h.sounding v (hmem hv))
  · obtain heq | ⟨-, hnone⟩ := k.decks e
    · rwa [heq] at he
    · rw [hnone] at he
      cases he
  · obtain ⟨v, hv, hvt⟩ := State.mem_tags.mp h.present
    refine State.mem_tags.mpr ⟨v, ?_, hvt⟩
    rw [k.records]
    exact List.mem_filter.mpr ⟨hv, by simpa [hvt] using hne.symm⟩

theorem State.Removed.mem_tags_ne {r : CueRecord} {gone tag : Nat} (k : s.Removed t r gone) (h : tag ∈ s.tags) (hne : tag ≠ gone) :
    tag ∈ t.tags := by
  obtain ⟨v, hv, hvt⟩ := State.mem_tags.mp h
  refine State.mem_tags.mpr ⟨v, ?_, hvt⟩
  rw [k.records]
  exact List.mem_filter.mpr ⟨hv, by simpa [hvt] using hne⟩

theorem State.Removed.mem_records {r v : CueRecord} {gone : Nat} (k : s.Removed t r gone) (h : v ∈ t.records) : v ∈ s.records := by
  rw [k.records] at h
  exact List.mem_of_mem_filter h

theorem State.Removed.count {r : CueRecord} {gone : Nat} (k : s.Removed t r gone) (h : gone ∈ s.tags) :
    t.log.records.length + t.records.length ≤ s.log.records.length + s.records.length := by
  obtain ⟨v, hv, hvt⟩ := State.mem_tags.mp h
  have hlt : (s.records.filter fun x => x.tag != gone).length < s.records.length :=
    List.length_filter_lt_length_iff_exists.mpr ⟨v, hv, by simp [hvt]⟩
  have hlog := k.log
  rw [k.records]
  omega

theorem State.find_mem_tags {tag : Nat} {r : CueRecord} (h : s.find tag = some r) : tag ∈ s.tags :=
  State.mem_tags.mpr ⟨r, State.find_mem h, State.find_tag h⟩

end Sys2Proof.Machine
end


section
/-! Moves: what fits and overtakings do to running order, decks and log, step by step, and what they keep. -/

namespace Sys2Proof.Machine

variable {s t u : State} {d : DeckNo} {fine : Prop} {gone : List Nat} {n k : Nat}

/-! ### Moves -/

/-- One step of a fit or an overtaking, counted when it brings a record in. In a fine state what leaves is unstarted and not
among those still to leave. -/
inductive State.Move (fine : Prop) (gone : List Nat) (s t : State) : Nat → Prop where
  | shift (h : s.Shift t) : State.Move fine gone s t 0
  | rest (records : t.records = s.records) (decks : t.decks = s.decks) (requests : t.mix.requests = s.mix.requests)
      (log : t.log = s.log) : State.Move fine gone s t 0
  | truncEnd (tag : Nat) (e : Option Nat) (ht : t = s.modRecord tag fun r => { r with truncEnd := e }) : State.Move fine gone s t 0
  | trim (d : DeckNo) (x : Deck) (hstate : x.state = (s.deck d).state) (hin : x.fadeIn = (s.deck d).fadeIn)
      (hout : x.fadeOut = (s.deck d).fadeOut) (hbound : x.bound = (s.deck d).bound) (ht : t = s.setDeck d x) : State.Move fine gone s t 0
  | remove (tag : Nat) (r : CueRecord) (hf : s.find tag = some r) (hr : fine → tag ∉ gone ∧ r.unstarted = true)
      (h : s.Removed t r tag) (hmix : t.mix = s.mix) : State.Move fine gone s t 0
  | add (after : Nat) (r : CueRecord) (hnew : r.tag ∉ s.tags) (hfill : 65280 ≤ r.tag) (hr : r.unstarted = true) (hd : r.deck = none)
      (ht : t = { s with records := insertAfter after r s.records }) : State.Move fine gone s t 1

/-- Moves one after another, with the number of records brought in. -/
inductive State.Moves (fine : Prop) (gone : List Nat) (s : State) : State → Nat → Prop where
  | refl : State.Moves fine gone s s 0
  | tail {t u : State} {n k : Nat} (h : State.Moves fine gone s t n) (m : State.Move fine gone t u k) : State.Moves fine gone s u (n + k)

theorem State.Move.many (h : s.Move fine gone t n) : s.Moves fine gone t n := by
  have hm := State.Moves.tail .refl h
  rwa [Nat.zero_add] at hm

theorem State.Moves.trans (h : s.Moves fine gone t n) (m : t.Moves fine gone u k) : s.Moves fine gone u (n + k) := by
  induction m with
  | refl => exact h
  | tail _ m ih => exact (Nat.add_assoc _ _ _) ▸ State.Moves.tail ih m

theorem State.Moves.trans_zero (h : s.Moves fine gone t n) (m : t.Moves fine gone u 0) : s.Moves fine gone u n := h.trans m

theorem State.Moves.zero_trans (h : s.Moves fine gone t 0) (m : t.Moves fine gone u n) : s.Moves fine gone u n := by
  have hm := h.trans m
  rwa [Nat.zero_add] at hm

theorem State.Shifts.moves (h : s.Shifts t) : s.Moves fine gone t 0 := by
  induction h with
  | refl => exact .refl
  | tail _ k ih => exact .tail ih (.shift k)

/-- With fewer still to leave there is less to keep. -/
theorem State.Move.mono {few : List Nat} (hsub : ∀ x ∈ few, x ∈ gone) (h : s.Move fine gone t n) : s.Move fine few t n := by
  cases h with
  | shift h => exact .shift h
  | rest h1 h2 h3 h4 => exact .rest h1 h2 h3 h4
  | truncEnd tag e ht => exact .truncEnd tag e ht
  | trim d x h1 h2 h3 h4 ht => exact .trim d x h1 h2 h3 h4 ht
  | remove tag r hf hr h hmix => exact .remove tag r hf (fun hn => ⟨fun hx => (hr hn).1 (hsub _ hx), (hr hn).2⟩) h hmix
  | add a r h1 h2 h3 h4 ht => exact .add a r h1 h2 h3 h4 ht

theorem State.Moves.mono {few : List Nat} (hsub : ∀ x ∈ few, x ∈ gone) (h : s.Moves fine gone t n) : s.Moves fine few t n := by
  induction h with
  | refl => exact .refl
  | tail _ m ih => exact .tail ih (m.mono hsub)

/-! ### What a move keeps -/

theorem mem_insertAfter {after : Nat} {r v : CueRecord} {l : List CueRecord} : v ∈ insertAfter after r l ↔ v = r ∨ v ∈ l := by
  induction l with
  | nil => simp [insertAfter]
  | cons x xs ih =>
    unfold insertAfter
    split
    · simp only [List.mem_cons]
      tauto
    · simp only [List.mem_cons, ih]
      tauto

/-- A move that brings no record in changes the records one by one, or takes the records of a tag out. -/
theorem State.Move.records (h : s.Move fine gone t n) :
    (∃ f : CueRecord → CueRecord, t.records = s.records.map f ∧ t.log = s.log ∧ ∀ r, (f r).tag = r.tag
      ∧ (r.triggered = true → (f r).triggered = true) ∧ (r.unstarted = true → (f r).unstarted = true))
    ∨ (∃ tag r, s.find tag = some r ∧ s.Removed t r tag ∧ (fine → tag ∉ gone ∧ r.unstarted = true))
    ∨ ∃ after r, t.records = insertAfter after r s.records ∧ t.log = s.log ∧ r.tag ∉ s.tags ∧ 65280 ≤ r.tag ∧ r.unstarted = true ∧ n = 1 := by
  cases h with
  | shift h =>
    obtain ⟨f, hf, hfs⟩ := h.records
    exact .inl ⟨f, hf, h.rests.1, fun r => ⟨(hfs r).tag, (hfs r).2⟩⟩
  | rest hrecords _ _ hlog => exact .inl ⟨id, by rw [hrecords, List.map_id], hlog, fun r => ⟨rfl, id, id⟩⟩
  | truncEnd tag e ht =>
    subst ht
    refine .inl ⟨_, rfl, rfl, fun r => ?_⟩
    split
    · exact ⟨rfl, id, id⟩
    · exact ⟨rfl, id, id⟩
  | trim d x _ _ _ _ ht =>
    subst ht
    exact .inl ⟨id, (List.map_id _).symm, rfl, fun r => ⟨rfl, id, id⟩⟩
  | remove tag r hf hr h hmix => exact .inr (.inl ⟨tag, r, hf, h, hr⟩)
  | add a r hnew hfill hr hd ht =>
    subst ht
    exact .inr (.inr ⟨a, r, rfl, rfl, hnew, hfill, hr, rfl⟩)

theorem State.tags_map {f : CueRecord → CueRecord} (hf : t.records = s.records.map f) (htag : ∀ r, (f r).tag = r.tag) : t.tags = s.tags := by
  rw [State.tags, hf, List.map_map, State.tags]
  exact List.map_congr_left fun r _ => htag r

theorem State.Removed.tags {r : CueRecord} {tag : Nat} (h : s.Removed t r tag) : t.tags = s.tags.filter fun x => x != tag := by
  rw [State.tags, h.records, State.tags, List.filter_map]
  rfl

theorem State.Move.nodup (h : s.Move fine gone t n) (hn : s.tags.Nodup) : t.tags.Nodup := by
  obtain ⟨f, hf, -, hfs⟩ | ⟨tag, r, -, hrem, -⟩ | ⟨a, r, hrecords, -, hnew, -⟩ := h.records
  · rw [State.tags_map hf fun r => (hfs r).1]
    exact hn
  · rw [hrem.tags]
    exact hn.filter _
  · have hperm : t.tags.Perm (r.tag :: s.tags) := by
      rw [State.tags, hrecords]
      exact (insertAfter_perm a r s.records).map CueRecord.tag
    exact hperm.nodup_iff.mpr (List.nodup_cons.mpr ⟨hnew, hn⟩)

theorem State.Move.waits (h : s.Move fine gone t n) {tag : Nat} (hw : s.Waits tag) : t.Waits tag := by
  intro v hv hvt
  obtain ⟨f, hf, -, hfs⟩ | ⟨gone, r, -, hrem, -⟩ | ⟨a, r, hrecords, -, hnew, hfill, hr, -⟩ := h.records
  · rw [hf] at hv
    obtain ⟨r, hr, rfl⟩ := List.mem_map.mp hv
    obtain ⟨htag, -, hun⟩ := hfs r
    exact hun (hw r hr (htag.symm.trans hvt))
  · exact hw v (hrem.mem_records hv) hvt
  · rw [hrecords] at hv
    obtain rfl | hv := mem_insertAfter.mp hv
    · exact hr
    · exact hw v hv hvt

theorem State.Move.marked (h : s.Move fine gone t n) {tag : Nat} (hlt : tag < 65280) (hm : s.IsMarked tag) : t.IsMarked tag := by
  intro v hv hvt
  obtain ⟨f, hf, -, hfs⟩ | ⟨gone, r, -, hrem, -⟩ | ⟨a, r, hrecords, -, hnew, hfill, hr, -⟩ := h.records
  · rw [hf] at hv
    obtain ⟨r, hr, rfl⟩ := List.mem_map.mp hv
    obtain ⟨htag, hmark, -⟩ := hfs r
    exact hmark (hm r hr (htag.symm.trans hvt))
  · exact hm v (hrem.mem_records hv) hvt
  · rw [hrecords] at hv
    obtain rfl | hv := mem_insertAfter.mp hv
    · omega
    · exact hm v hv hvt

/-- A record still to leave stays through a move. -/
theorem State.Move.stays (h : s.Move fine gone t n) (hn : fine) {tag : Nat} (hg : tag ∈ gone) (hp : tag ∈ s.tags) : tag ∈ t.tags := by
  obtain ⟨f, hf, -, hfs⟩ | ⟨other, r, -, hrem, hr⟩ | ⟨a, r, hrecords, -, -⟩ := h.records
  · rw [State.tags_map hf fun r => (hfs r).1]
    exact hp
  · exact hrem.mem_tags_ne hp fun he => (hr hn).1 (he ▸ hg)
  · obtain ⟨v, hv, hvt⟩ := State.mem_tags.mp hp
    exact State.mem_tags.mpr ⟨v, hrecords ▸ mem_insertAfter.mpr (.inr hv), hvt⟩

/-- Log entries and records together grow by the records brought in at most. -/
theorem State.Move.count (h : s.Move fine gone t n) :
    t.log.records.length + t.records.length ≤ s.log.records.length + s.records.length + n := by
  obtain ⟨f, hf, hlog, -⟩ | ⟨tag, r, hfind, hrem, -⟩ | ⟨a, r, hrecords, hlog, -, -, -, hone⟩ := h.records
  · rw [hf, hlog, List.length_map]
    omega
  · have hcount := hrem.count (State.find_mem_tags hfind)
    omega
  · rw [hrecords, hlog, (insertAfter_perm a r s.records).length_eq, List.length_cons]
    omega

/-- A move leaves a sounding item to its fade. -/
theorem State.Move.sounds (h : s.Move fine gone t n) (hn : fine) {tag : Nat} {x : Deck} {q : Option DuckRequest}
    (hs : s.Sounds d tag x q) : t.Sounds d tag x q := by
  cases h with
  | shift h => exact h.sounds hs
  | rest hrecords hdecks hrequests _ => exact hs.congr hrecords hdecks (by rw [hrequests])
  | truncEnd e n ht =>
    subst ht
    refine hs.map rfl (fun r => ?_) (fun r _ => ?_) (fun r _ _ => ?_) rfl rfl rfl rfl (fun _ => id) rfl
    · split <;> rfl
    · split <;> exact id
    · split <;> rfl
  | trim e y hstate hin hout hbound ht =>
    subst ht
    have hfield {α : Type} (f : Deck → α) (hf : f y = f (s.deck e)) (i : DeckNo) : f ((s.setDeck e y).deck i) = f (s.deck i) := by
      by_cases he : e = i
      · subst he
        rw [State.deck_setDeck_self, hf]
      · rw [State.deck_setDeck_ne _ _ _ _ he]
    exact hs.of_parts (hfield Deck.state hstate d) (hfield Deck.fadeIn hin d) (hfield Deck.fadeOut hout d)
      (hfield Deck.bound hbound d) (fun i hi => (hfield Deck.bound hbound i).symm.trans hi) rfl hs.present hs.mine hs.sounding
  | remove gone r hf hr h hmix =>
    obtain ⟨htag, hdeck⟩ := hs.not_waiting (State.find_mem hf) (hr hn).2
    exact h.sounds hs (by rw [hmix]) (State.find_tag hf ▸ htag) hdeck
  | add a r hnew hfill hr hd ht =>
    subst ht
    have hmem {v : CueRecord} (hv : v ∈ insertAfter a r s.records) : v = r ∨ v ∈ s.records := mem_insertAfter.mp hv
    refine hs.of_parts rfl rfl rfl rfl (fun _ => id) rfl ?_ (fun v hv hvd => ?_) (fun v hv hvt => ?_)
    · obtain ⟨v, hv, hvt⟩ := State.mem_tags.mp hs.present
      exact State.mem_tags.mpr ⟨v, mem_insertAfter.mpr (.inr hv), hvt⟩
    · obtain rfl | hv := hmem hv
      · rw [hd] at hvd
        cases hvd
      · exact hs.mine v hv hvd
    · obtain rfl | hv := hmem hv
      · exact absurd (hvt ▸ hs.present) hnew
      · exact hs.sounding v hv hvt

/-! ### What moves keep -/

theorem State.Moves.nodup (h : s.Moves fine gone t n) (hn : s.tags.Nodup) : t.tags.Nodup := by
  induction h with
  | refl => exact hn
  | tail _ m ih => exact m.nodup ih

theorem State.Moves.waits (h : s.Moves fine gone t n) {tag : Nat} (hw : s.Waits tag) : t.Waits tag := by
  induction h with
  | refl => exact hw
  | tail _ m ih => exact m.waits ih

theorem State.Moves.marked (h : s.Moves fine gone t n) {tag : Nat} (hlt : tag < 65280) (hm : s.IsMarked tag) : t.IsMarked tag := by
  induction h with
  | refl => exact hm
  | tail _ m ih => exact m.marked hlt ih

theorem State.Moves.stays (h : s.Moves fine gone t n) (hn : fine) {tag : Nat} (hg : tag ∈ gone) (hp : tag ∈ s.tags) : tag ∈ t.tags := by
  induction h with
  | refl => exact hp
  | tail _ m ih => exact m.stays hn hg ih

theorem State.Moves.count (h : s.Moves fine gone t n) :
    t.log.records.length + t.records.length ≤ s.log.records.length + s.records.length + n := by
  induction h with
  | refl => exact le_rfl
  | tail _ m ih =>
    have hm := m.count
    omega

theorem State.Moves.sounds (h : s.Moves fine gone t n) (hn : fine) {tag : Nat} {x : Deck} {q : Option DuckRequest}
    (hs : s.Sounds d tag x q) : t.Sounds d tag x q := by
  induction h with
  | refl => exact hs
  | tail _ m ih => exact m.sounds hn ih

/-! ### Records that leave together -/

/-- What the break fitter does when told of a departure is made of moves that keep those still to leave. -/
def MovesWhenTold (fine : Prop) (told : State → CueRecord → List Nat → State) (k : Nat) : Prop :=
  ∀ (s : State) (r : CueRecord) (l : List Nat), (fine → s.tags.Nodup) → ∃ n ≤ k, s.Moves fine l (told s r l) n

theorem State.moves_removeRecord {tag : Nat} {r : CueRecord} (hf : s.find tag = some r)
    (hr : fine → tag ∉ gone ∧ r.unstarted = true) (c : Cause) (byFit : Bool) : s.Move fine gone (s.removeRecord tag c byFit) 0 := by
  obtain ⟨-, -, hmix, -⟩ := State.removeRecord_leaves hf c byFit
  exact .remove tag r hf hr (State.removeRecord_removed hf c byFit) hmix

theorem State.moves_leaveOne {told : State → CueRecord → List Nat → State} (ht : MovesWhenTold fine told k) (c : Cause) (byFit : Bool)
    {tag : Nat} {rest : List Nat} (hnd : fine → s.tags.Nodup) (h : fine → tag ∉ rest ∧ s.Waits tag) :
    ∃ n ≤ k, s.Moves fine rest (s.leaveOne c byFit told tag rest) n := by
  unfold State.leaveOne
  split
  · exact ⟨0, Nat.zero_le _, .refl⟩
  · rename_i r hf
    have hr : fine → tag ∉ rest ∧ r.unstarted = true := fun hn => ⟨(h hn).1, (h hn).2 r (State.find_mem hf) (State.find_tag hf)⟩
    have hgone := State.moves_removeRecord hf hr c byFit
    obtain ⟨n, hn, hm⟩ := ht (s.removeRecord tag c byFit) r rest fun hn => hgone.nodup (hnd hn)
    have hfirst := hgone.many.zero_trans hm
    refine ⟨n, hn, State.Moves.trans_zero ?_ (State.shift_bindHeld _ _ _).moves⟩
    split
    · exact hfirst
    · exact hfirst.trans_zero (State.shift_rejudge _ _).moves

/-- Unstarted records that leave together, with what the break fitter is told in between. -/
theorem State.moves_leaveAll {told : State → CueRecord → List Nat → State} (ht : MovesWhenTold fine told k) (c : Cause) (byFit : Bool)
    {l : List Nat} (hnd : fine → s.tags.Nodup) (h : fine → l.Nodup ∧ ∀ tag ∈ l, tag ∉ gone ∧ s.Waits tag) :
    ∃ n ≤ l.length * k, s.Moves fine gone (s.leaveAll c byFit told gone l) n := by
  induction l generalizing s with
  | nil => exact ⟨0, Nat.zero_le _, .refl⟩
  | cons tag rest ih =>
    obtain ⟨n, hn, hm⟩ := State.moves_leaveOne (s := s) (rest := rest ++ gone) ht c byFit (tag := tag) hnd fun hfine => by
      obtain ⟨hl, hall⟩ := h hfine
      obtain ⟨hg, hw⟩ := hall tag (List.mem_cons_self ..)
      exact ⟨fun hx => (List.mem_append.mp hx).elim (List.nodup_cons.mp hl).1 hg, hw⟩
    obtain ⟨m, hmle, hmm⟩ := ih (s := s.leaveOne c byFit told tag (rest ++ gone)) (fun hfine => hm.nodup (hnd hfine)) fun hfine => by
      obtain ⟨hl, hall⟩ := h hfine
      refine ⟨(List.nodup_cons.mp hl).2, fun x hx => ?_⟩
      obtain ⟨hg, hw⟩ := hall x (List.mem_cons_of_mem _ hx)
      exact ⟨hg, hm.waits hw⟩
    refine ⟨n + m, ?_, (hm.mono fun x hx => List.mem_append_right _ hx).trans hmm⟩
    rw [List.length_cons, Nat.succ_mul]
    omega

theorem movesWhenTold_noFit : MovesWhenTold fine tellNoFit 0 := fun _ _ _ _ => ⟨0, le_rfl, .refl⟩

end Sys2Proof.Machine
end


section
/-! A fade-out that is asked for: what it leaves of other items, of the running order and of the break entries. Then the expiries of a
break. -/

namespace Sys2Proof.Machine

variable {s t u : State} {d e : DeckNo}

/-! ### A fade-out asked for -/

/-- What a fade-out request at a deck can come to: nothing, a fade on the deck, or the item's end. -/
inductive State.FadeAsked (s t : State) (e : DeckNo) : Prop where
  | none (ht : t = s)
  | fades (x : Deck) (hs : (s.deck e).sounding = true) (hbound : x.bound = (s.deck e).bound) (records : t.records = s.records)
      (decks : t.decks = s.decks.set e x) (breaks : t.breaks = s.breaks) (log : t.log.records = s.log.records)
      (requests : ∀ i : DeckNo, i ≠ e → t.mix.requests[i] = s.mix.requests[i])
  | ends (tag : Nat) (r : CueRecord) (hs : (s.deck e).sounding = true) (hbound : (s.deck e).bound = some tag) (hf : s.find tag = some r)
      (gone : s.Removed t r tag) (requests : ∀ i : DeckNo, i ≠ e → t.mix.requests[i] = s.mix.requests[i])

theorem State.requests_withdrawDuck_ne (s : State) {i : DeckNo} (h : i ≠ e) : (s.withdrawDuck e).mix.requests[i] = s.mix.requests[i] := by
  have h' : e.val ≠ i.val := fun c => h (Fin.ext c.symm)
  rw [State.withdrawDuck_frame]
  simp [State.withLine, State.setRequest, h']

theorem State.breaks_withdrawDuck (s : State) (e : DeckNo) : (s.withdrawDuck e).breaks = s.breaks := by
  rw [State.withdrawDuck_frame]
  rfl

theorem State.Removed.emit {r : CueRecord} {tag : Nat} (h : s.Removed t r tag) (ts : List Task) : s.Removed (t.emit ts) r tag where
  records := h.records
  decks := h.decks
  log := h.log
  entries := h.entries
  statuses := h.statuses

theorem State.Removed.of_same {r : CueRecord} {tag : Nat} (h : u.Removed t r tag) (hrecords : u.records = s.records)
    (hdecks : u.decks = s.decks) (hbreaks : u.breaks = s.breaks) (hlog : u.log.records = s.log.records) : s.Removed t r tag where
  records := by rw [h.records, hrecords]
  decks := fun i => by rw [← State.deck_congr hdecks i]; exact h.decks i
  log := by rw [← hlog]; exact h.log
  entries := fun i => by rw [← State.entry_congr hbreaks i]; exact h.entries i
  statuses := fun hnot => (h.statuses hnot).trans hbreaks

theorem State.endItem_asked (s : State) (hs : (s.deck e).sounding = true) (c : Cause) : s.FadeAsked (s.endItem e c) e := by
  cases hb : (s.deck e).bound with
  | none => exact .none (by simp only [State.endItem, hb])
  | some tag =>
    cases hit : (s.deck e).item with
    | none => exact .none (by simp only [State.endItem, hb, hit])
    | some it =>
      cases hf : s.find tag with
      | none => exact .none (by simp only [State.endItem, hb, hit, hf])
      | some r =>
        rw [State.endItem_eq hb hit hf]
        have hlog := ((s.withdrawDuck e).log_handLive (.finish ⟨wordField tag, byteField it.group.val,
          byteField (r.finalCause c).outcome.code, timeField (some s.now)⟩)).records
        have hframe := (s.withdrawDuck e).handLive_frame (.finish ⟨wordField tag, byteField it.group.val,
          byteField (r.finalCause c).outcome.code, timeField (some s.now)⟩)
        generalize (s.withdrawDuck e).handLive _ = v at hlog hframe
        have hrecords : v.records = s.records := by rw [hframe]; exact s.records_withdrawDuck e
        have hdecks : v.decks = s.decks := by rw [hframe, s.withdrawDuck_frame e]; rfl
        have hbreaks : v.breaks = s.breaks := by rw [hframe]; exact s.breaks_withdrawDuck e
        have hmix : v.mix = (s.withdrawDuck e).mix := by rw [hframe]; rfl
        have hfv : v.find tag = some r := by rw [State.find, hrecords]; exact hf
        obtain ⟨-, -, hrmix, -⟩ := State.removeRecord_leaves hfv c false
        have hgone := State.removeRecord_removed hfv c false
        rw [State.depart_eq hfv]
        generalize v.removeRecord tag c false = w at hrmix hgone
        refine .ends tag r hs hb hf ((hgone.emit _).of_same hrecords hdecks hbreaks (hlog.trans (s.log_withdrawDuck e).records))
          fun i hi => ?_
        rw [State.emit_mix, hrmix, hmix]
        exact s.requests_withdrawDuck_ne hi

theorem Deck.sounding_of_fadeEntry {x : Deck} {len entry q : Nat} (h : x.fadeEntry len entry = some q) : x.sounding = true := by
  unfold Deck.fadeEntry at h
  unfold Deck.sounding
  cases hs : x.state with
  | playing => rfl
  | fading => rfl
  | _ => rw [hs] at h; cases h

theorem State.requestFade_asked (s : State) (e : DeckNo) (len : Nat) (law : Law) (c : Cause) (entry : Nat) :
    s.FadeAsked (s.requestFade e len law c entry) e := by
  cases hq : (s.deck e).fadeEntry len entry with
  | none => exact .none (State.requestFade_none hq law c)
  | some q =>
    have hs := Deck.sounding_of_fadeEntry hq
    rw [State.requestFade_some hq]
    by_cases hlt : q < len
    · rw [State.enterFade_fades hlt]
      refine .fades ((s.deck e).fadeTo q len law c) hs rfl ?_ ?_ ?_ ?_ fun i hi => ?_
      · rw [State.records_withdrawDuck, State.setDeck_records]
      · rw [State.withdrawDuck_frame]
        rfl
      · rw [State.breaks_withdrawDuck, State.setDeck_breaks]
      · rw [(State.log_withdrawDuck _ e).records, State.setDeck_log]
      · rw [State.requests_withdrawDuck_ne _ hi, State.setDeck_mix]
    · rw [State.enterFade_ends (Nat.not_lt.mp hlt)]
      exact s.endItem_asked hs c

/-! ### What a fade-out asked for keeps -/

/-- A record whose item does not sound: no sounding deck is bound to it. -/
def State.Silent (s : State) (tag : Nat) : Prop := ∀ i : DeckNo, (s.deck i).bound = some tag → (s.deck i).sounding = false

theorem State.FadeAsked.mem_records (h : s.FadeAsked t e) {v : CueRecord} (hv : v ∈ t.records) : v ∈ s.records := by
  cases h with
  | none ht => rwa [ht] at hv
  | fades x _ _ hrecords => rwa [hrecords] at hv
  | ends tag r _ _ _ hgone _ => exact hgone.mem_records hv

theorem State.FadeAsked.entries (h : s.FadeAsked t e) (i : EntryNo) : (t.entry i).core = (s.entry i).core := by
  cases h with
  | none ht => rw [ht]
  | fades x _ _ _ _ hbreaks => rw [State.entry_congr hbreaks]
  | ends tag r _ _ _ hgone _ => exact hgone.entries i

theorem State.FadeAsked.count (h : s.FadeAsked t e) :
    t.log.records.length + t.records.length ≤ s.log.records.length + s.records.length := by
  cases h with
  | none ht => rw [ht]
  | fades x _ _ hrecords _ _ hlog _ => rw [hrecords, hlog]
  | ends tag r _ _ hf hgone _ => exact hgone.count (State.find_mem_tags hf)

theorem State.FadeAsked.nodup (h : s.FadeAsked t e) (hn : s.tags.Nodup) : t.tags.Nodup := by
  cases h with
  | none ht => rwa [ht]
  | fades x _ _ hrecords => rwa [State.tags, hrecords]
  | ends tag r _ _ _ hgone _ =>
    rw [hgone.tags]
    exact hn.filter _

/-- A request at another deck leaves a sounding item to its fade. -/
theorem State.FadeAsked.sounds (h : s.FadeAsked t e) {tag : Nat} {x : Deck} {q : Option DuckRequest} (hs : s.Sounds d tag x q)
    (hne : e ≠ d) : t.Sounds d tag x q := by
  cases h with
  | none ht => rwa [ht]
  | fades y _ hbound hrecords hdecks _ _ hrequests =>
    have hdeck (i : DeckNo) : t.deck i = (s.setDeck e y).deck i := State.deck_congr (t := t) (s := s.setDeck e y) hdecks i
    have hd : t.deck d = s.deck d := (hdeck d).trans (s.deck_setDeck_ne e d y hne)
    refine hs.of_parts (by rw [hd]) (by rw [hd]) (by rw [hd]) (by rw [hd]) (fun i hi => ?_) (hrequests d hne.symm) ?_ ?_ ?_
    · rw [hdeck] at hi
      by_cases hei : e = i
      · subst hei
        rwa [State.deck_setDeck_self, hbound] at hi
      · rwa [State.deck_setDeck_ne _ _ _ _ hei] at hi
    · rw [State.tags, hrecords]
      exact hs.present
    · rw [hrecords]
      exact hs.mine
    · rw [hrecords]
      exact hs.sounding
  | ends gone r _ hbound hf hgone hrequests =>
    have htag : gone ≠ tag := fun hg => hne (hs.only e (hg ▸ hbound))
    exact hgone.sounds hs (hrequests d hne.symm) htag fun hr => htag ((State.find_tag hf).symm.trans (hs.mine r (State.find_mem hf) hr))

/-- A request takes no silent record out. -/
theorem State.FadeAsked.stays (h : s.FadeAsked t e) {tag : Nat} (hs : s.Silent tag) (hp : tag ∈ s.tags) : tag ∈ t.tags := by
  cases h with
  | none ht => rwa [ht]
  | fades x _ _ hrecords => rwa [State.tags, hrecords]
  | ends gone r hsound hbound hf hgone _ =>
    refine hgone.mem_tags_ne hp fun hg => ?_
    have hsilent := hs e (hg ▸ hbound)
    rw [hsound] at hsilent
    cases hsilent

theorem State.FadeAsked.silent (h : s.FadeAsked t e) {tag : Nat} (hs : s.Silent tag) : t.Silent tag := by
  cases h with
  | none ht => rwa [ht]
  | fades x hsound hbound _ hdecks =>
    intro i hi
    have hdeck : t.deck i = (s.setDeck e x).deck i := State.deck_congr (t := t) (s := s.setDeck e x) hdecks i
    rw [hdeck] at hi ⊢
    by_cases hei : e = i
    · subst hei
      rw [State.deck_setDeck_self, hbound] at hi
      exact absurd ((hs e hi).symm.trans hsound) (by decide)
    · rw [State.deck_setDeck_ne _ _ _ _ hei] at hi ⊢
      exact hs i hi
  | ends gone r _ _ _ hgone _ =>
    intro i hi
    obtain hsame | ⟨-, hnone⟩ := hgone.decks i
    · rw [hsame] at hi ⊢
      exact hs i hi
    · rw [hnone] at hi
      cases hi

/-! ### Fade-outs asked for one after another -/

/-- A fade-out asked for at a record's deck. -/
def State.askFade (len : Nat) (law : CueRecord → Law) (c : Cause) (s : State) (r : CueRecord) : State :=
  match r.deck with
  | none => s
  | some d => s.requestFade d len (law r) c 0

theorem State.askFade_asked (len : Nat) (law : CueRecord → Law) (c : Cause) (s : State) (r : CueRecord) :
    ∃ e, s.FadeAsked (s.askFade len law c r) e ∧ (∀ i, r.deck = some i → e = i) := by
  unfold State.askFade
  cases r.deck with
  | none => exact ⟨0, .none rfl, nofun⟩
  | some i => exact ⟨i, s.requestFade_asked i len (law r) c 0, fun j hj => Option.some.inj hj⟩

/-- What every request keeps, requests one after another keep. -/
theorem askFades_keep {P : State → Prop} {len : Nat} {law : CueRecord → Law} {c : Cause}
    (hP : ∀ (s t : State) (e : DeckNo), s.FadeAsked t e → P s → P t) (l : List CueRecord) (s : State) (h : P s) :
    P (l.foldl (State.askFade len law c) s) := by
  induction l generalizing s with
  | nil => exact h
  | cons r l ih =>
    obtain ⟨e, he, -⟩ := s.askFade_asked len law c r
    exact ih _ (hP _ _ e he h)

theorem askFades_sounds {len : Nat} {law : CueRecord → Law} {c : Cause} {tag : Nat} {x : Deck} {q : Option DuckRequest}
    (l : List CueRecord) (s : State) (hl : ∀ r ∈ l, r.deck ≠ some d) (h : s.Sounds d tag x q) :
    (l.foldl (State.askFade len law c) s).Sounds d tag x q := by
  induction l generalizing s with
  | nil => exact h
  | cons r l ih =>
    refine ih _ (fun v hv => hl v (List.mem_cons_of_mem _ hv)) ?_
    unfold State.askFade
    split
    · exact h
    · rename_i i hi
      exact (s.requestFade_asked i _ _ _ _).sounds h fun he => hl r (List.mem_cons_self ..) (by rw [hi, he])

/-- An item that sounds without a fade takes up the fade-out asked for at its own record. -/
theorem State.Sounds.fades {tag : Nat} {x : Deck} {q : Option DuckRequest} (h : s.Sounds d tag x q) (hplay : x.state = .playing)
    (hin : x.fadeIn = none) {len : Nat} (hlen : 0 < len) (law : Law) (c : Cause) :
    (s.requestFade d len law c 0).Sounds d tag { x with state := .fading, fadeOut := some ⟨0, len, law, c⟩ } none := by
  have hp : (s.deck d).state = .playing := h.state.trans hplay
  have hi : (s.deck d).fadeIn = none := h.fadeIn.trans hin
  rw [State.requestFade_playing hp hi hlen, Deck.fadeTo_of_noFadeIn hi]
  have hdeck (i : DeckNo) (y : Deck) : (((s.setDeck d y).withdrawDuck d).deck i) = (s.setDeck d y).deck i := State.deck_withdrawDuck _ _ _
  have hself (y : Deck) : ((s.setDeck d y).withdrawDuck d).deck d = y := (hdeck d y).trans (s.deck_setDeck_self d y)
  have hrecords (y : Deck) : ((s.setDeck d y).withdrawDuck d).records = s.records := State.records_withdrawDuck _ _
  exact
    { live := rfl
      state := by rw [hself]
      fadeIn := by rw [hself]; exact h.fadeIn
      fadeOut := by rw [hself]
      bound := by rw [hself]; exact h.bound
      request := State.request_withdrawDuck _ d
      only := fun i hi => by
        by_cases hdi : d = i
        · exact hdi.symm
        · rw [hdeck, State.deck_setDeck_ne _ _ _ _ hdi] at hi
          exact h.only i hi
      present := by rw [State.tags, hrecords]; exact h.present
      mine := by rw [hrecords]; exact h.mine
      sounding := by rw [hrecords]; exact h.sounding }

/-- Of the requests one after another, the one at an item's own record gives it its fade, and no other reaches its deck. -/
theorem askFades_fades {len : Nat} {law : CueRecord → Law} {c : Cause} {r : CueRecord} {x : Deck} {q : Option DuckRequest}
    {l : List CueRecord} (hmem : r ∈ l) (hnd : (l.map (·.tag)).Nodup) (hr : r.deck = some d)
    (hmine : ∀ v ∈ l, v.deck = some d → v.tag = r.tag) (h : s.Sounds d r.tag x q) (hplay : x.state = .playing)
    (hin : x.fadeIn = none) (hlen : 0 < len) : (l.foldl (State.askFade len law c) s).Sounds d r.tag
      { x with state := .fading, fadeOut := some ⟨0, len, law r, c⟩ } none := by
  obtain ⟨before, behind, rfl⟩ := List.append_of_mem hmem
  rw [List.map_append, List.map_cons, List.nodup_append, List.nodup_cons] at hnd
  obtain ⟨-, ⟨hbehind, -⟩, hbefore⟩ := hnd
  rw [List.foldl_append, List.foldl_cons]
  refine askFades_sounds behind _ (fun v hv hvd => ?_) ?_
  · exact hbehind (hmine v (by simp [hv]) hvd ▸ List.mem_map_of_mem hv)
  · have hfirst := askFades_sounds (len := len) (law := law) (c := c) before s (fun v hv hvd =>
      hbefore _ (List.mem_map_of_mem hv) _ (List.mem_cons_self ..) (hmine v (by simp [hv]) hvd)) h
    rw [State.askFade, hr]
    exact hfirst.fades hplay hin hlen (law r) c

end Sys2Proof.Machine
end


section
/-! Records that leave without a fit, and the expiries of a break: the rejoin guard, the end of the id hold, the fill fade. -/

namespace Sys2Proof.Machine

variable {s t u : State} {d : DeckNo} {e : EntryNo}

/-! ### Records that leave without a fit -/

/-- A record leaves, and marks and bindings follow. -/
theorem State.leaveOne_noFit {tag : Nat} {r : CueRecord} (h : s.find tag = some r) (c : Cause) (byFit : Bool) (rest : List Nat) :
    (s.removeRecord tag c byFit).Shifts (s.leaveOne c byFit tellNoFit tag rest) := by
  simp only [State.leaveOne, h]
  refine State.Shifts.trans ?_ (State.shift_bindHeld _ _ _)
  split
  · exact .refl _
  · exact State.shift_rejudge _ _

theorem State.leaveOne_absent {tag : Nat} (h : s.find tag = none) (c : Cause) (byFit : Bool)
    (told : State → CueRecord → List Nat → State) (rest : List Nat) : s.leaveOne c byFit told tag rest = s := by
  simp only [State.leaveOne, h]

/-- One record map, marks and bindings apart, after the records of a tag have left. -/
theorem State.leaveOne_records (s : State) (c : Cause) (byFit : Bool) (tag : Nat) (rest : List Nat) : ∃ f,
    (s.leaveOne c byFit tellNoFit tag rest).records = (s.records.filter fun r => r.tag != tag).map f
      ∧ ∀ r : CueRecord, r.Shifted (f r) := by
  cases h : s.find tag with
  | none =>
    refine ⟨id, ?_, fun r => ⟨rfl, id, id⟩⟩
    rw [State.leaveOne_absent h, List.map_id]
    refine (List.filter_eq_self.mpr fun r hr => ?_).symm
    have hne : r.tag ≠ tag := fun ht => (s.find_none_iff tag).mp h (State.mem_tags.mpr ⟨r, hr, ht⟩)
    simpa using hne
  | some r =>
    obtain ⟨f, hf, hfs⟩ := (State.leaveOne_noFit h c byFit rest).records
    exact ⟨f, by rw [hf, (State.removeRecord_removed h c byFit).records], hfs⟩

/-- Those named have left; the others are as before, marks and bindings apart. -/
theorem State.leaveAll_records (c : Cause) (byFit : Bool) (gone l : List Nat) (s : State) : ∃ f,
    (s.leaveAll c byFit tellNoFit gone l).records = (s.records.filter fun r => !l.contains r.tag).map f
      ∧ ∀ r : CueRecord, r.Shifted (f r) := by
  induction l generalizing s with
  | nil =>
    refine ⟨id, ?_, fun r => ⟨rfl, id, id⟩⟩
    rw [List.map_id]
    exact (List.filter_eq_self.mpr fun _ _ => rfl).symm
  | cons tag rest ih =>
    obtain ⟨f, hf, hfs⟩ := s.leaveOne_records c byFit tag (rest ++ gone)
    obtain ⟨g, hg, hgs⟩ := ih (s.leaveOne c byFit tellNoFit tag (rest ++ gone))
    refine ⟨g ∘ f, ?_, fun r => ?_⟩
    · have htag : (fun r : CueRecord => !rest.contains r.tag) ∘ f = fun r => !rest.contains r.tag :=
        funext fun r => by rw [Function.comp, (hfs r).tag]
      rw [State.leaveAll, hg, hf, List.filter_map, List.map_map, List.filter_filter, htag]
      congr 1
      refine List.filter_congr fun r _ => ?_
      simp only [List.contains_cons, Bool.not_or, bne]
      exact Bool.and_comm _ _
    · obtain ⟨hcore, hmark, hun⟩ := hfs r
      obtain ⟨hcore', hmark', hun'⟩ := hgs (f r)
      exact ⟨hcore'.trans hcore, fun h => hmark' (hmark h), fun h => hun' (hun h)⟩

theorem State.leaveAll_tags (c : Cause) (byFit : Bool) (gone l : List Nat) (s : State) :
    (s.leaveAll c byFit tellNoFit gone l).tags = s.tags.filter fun tag => !l.contains tag := by
  obtain ⟨f, hf, hfs⟩ := s.leaveAll_records c byFit gone l
  rw [State.tags, hf, List.map_map, State.tags, List.filter_map]
  exact List.map_congr_left fun r _ => (hfs r).tag

theorem State.leaveAll_gone {tag : Nat} {l : List Nat} (h : tag ∈ l) (c : Cause) (byFit : Bool) (gone : List Nat) (s : State) :
    tag ∉ (s.leaveAll c byFit tellNoFit gone l).tags := by
  rw [State.leaveAll_tags]
  simp [h]

/-- Records that leave change no more of a break entry than its fill's leaving does. -/
theorem State.leaveAll_entries (c : Cause) (byFit : Bool) (gone l : List Nat) (s : State) (e : EntryNo) :
    ((s.leaveAll c byFit tellNoFit gone l).entry e).core = (s.entry e).core := by
  induction l generalizing s with
  | nil => rfl
  | cons tag rest ih =>
    refine (ih _).trans ?_
    cases h : s.find tag with
    | none => rw [State.leaveOne_absent h]
    | some r =>
      obtain ⟨-, hbreaks, -⟩ := (State.leaveOne_noFit h c byFit (rest ++ gone)).rests
      rw [State.entry_congr hbreaks]
      exact (State.removeRecord_removed h c byFit).entries e

/-! ### The rejoin guard (R137) -/

theorem eq_of_tag {l : List CueRecord} (hn : (l.map (·.tag)).Nodup) {r v : CueRecord} (hr : r ∈ l) (hv : v ∈ l) (h : v.tag = r.tag) :
    v = r := List.inj_on_of_nodup_map hn hv hr h

/-- With distinct tags an item sounds as its record and deck say. -/
theorem State.sounds_of_order {r : CueRecord} (hn : s.tags.Nodup) (hr : r ∈ s.records) (hs : r.sounding = true)
    (hd : (s.deck d).sounding = true) (hbound : (s.deck d).bound = some r.tag) (hmine : ∀ v ∈ s.records, v.deck = some d → v.tag = r.tag)
    (honly : ∀ i : DeckNo, (s.deck i).bound = some r.tag → i = d) : s.Sounds d r.tag (s.deck d) s.mix.requests[d] where
  live := hd
  state := rfl
  fadeIn := rfl
  fadeOut := rfl
  bound := hbound
  request := rfl
  only := honly
  present := State.mem_tags.mpr ⟨r, hr, rfl⟩
  mine := hmine
  sounding := fun _ hv hvt => eq_of_tag hn hr hv hvt ▸ hs

/-- The fade-outs of the guard. -/
def State.guardFades (s : State) (e : EntryNo) : State :=
  ((s.records.filter fun r => (s.entry e).isMember r || (s.entry e).isFill r).filter (·.sounding)).foldl
    (State.askFade 480 (·.law) ⟨.truncated, .none⟩) s

/-- The unstarted members and fill of a break. -/
def State.guardDrops (s : State) (e : EntryNo) : List Nat :=
  ((s.records.filter fun r => (s.entry e).isMember r || (s.entry e).isFill r).filter (·.unstarted)).map (·.tag)

/-- The state in which they have left. -/
def State.guardLeft (s : State) (e : EntryNo) : State :=
  (s.guardFades e).leaveAll ⟨.dropped, .noFit⟩ false tellNoFit [] (s.guardDrops e)

/-- An entry whose break has ended (R137). -/
def BreakEntry.ended (b : BreakEntry) : BreakEntry :=
  { b with state := .ended, idHold := true, fillState := .none, fillSnapshot := none, fillFade := none, projected := none }

theorem State.rejoinFired_eq (h : (s.entry e).state = .declared ∨ (s.entry e).state = .running) : ∃ v : State,
    s.rejoinFired e = (((s.guardLeft e).withReader v).cancelAir (.fillFade e) |>.setEntry e ((s.guardLeft e).entry e).ended).setAir
      (.idHold e) (addAir (s.entry e).rejoin 480) := by
  have heq : s.rejoinFired e = ((((s.guardLeft e).withdrawFetch (.fill e)).cancelAir (.fillFade e)).modEntry e
      BreakEntry.ended).setAir (.idHold e) (addAir (s.entry e).rejoin 480) := if_pos h
  refine ⟨(s.guardLeft e).withdrawFetch (.fill e), ?_⟩
  rw [heq, State.modEntry]
  have hframe := (s.guardLeft e).withdrawFetch_frame (.fill e)
  generalize (s.guardLeft e).withdrawFetch (.fill e) = w at hframe
  rw [hframe]
  rfl

theorem State.guardFades_entry (s : State) (e i : EntryNo) : ((s.guardFades e).entry i).core = (s.entry i).core :=
  askFades_keep (P := fun t => (t.entry i).core = (s.entry i).core) (fun _ _ _ h k => (h.entries i).trans k) _ s rfl

theorem State.guardFades_nodup (h : s.tags.Nodup) (e : EntryNo) : (s.guardFades e).tags.Nodup :=
  askFades_keep (P := fun t => t.tags.Nodup) (fun _ _ _ h k => h.nodup k) _ s h

theorem State.guardFades_records (s : State) (e : EntryNo) : ∀ v ∈ (s.guardFades e).records, v ∈ s.records :=
  askFades_keep (P := fun t => ∀ v ∈ t.records, v ∈ s.records) (fun _ _ _ h k v hv => k v (h.mem_records hv)) _ s fun _ => id

theorem State.after_guardLeft (s : State) (e : EntryNo) : s.After (s.guardLeft e) := by
  refine .andThen (State.after_leaveAll _ _ _ tellNoFit_after _ _ _) (State.After.foldl _ (fun s r => ?_) _ s)
  unfold State.askFade
  split
  · exact .refl s
  · exact s.after_requestFade _ _ _ _ _

theorem State.guardLeft_entry (s : State) (e i : EntryNo) : ((s.guardLeft e).entry i).core = (s.entry i).core :=
  (State.leaveAll_entries _ _ _ _ _ i).trans (s.guardFades_entry e i)

theorem State.nodup_guardDrops (h : s.tags.Nodup) (e : EntryNo) : (s.guardDrops e).Nodup :=
  h.sublist ((List.filter_sublist.trans List.filter_sublist).map _)

theorem State.mem_guardDrops {tag : Nat} : tag ∈ s.guardDrops e ↔
    ∃ r ∈ s.records, ((s.entry e).isMember r = true ∨ (s.entry e).isFill r = true) ∧ r.unstarted = true ∧ r.tag = tag := by
  simp only [State.guardDrops, List.mem_map, List.mem_filter, Bool.or_eq_true, and_assoc]

/-- The guard's fades and departures leave a member's or fill's item in its fade-out. -/
theorem State.guardLeft_sounds {r : CueRecord} (hn : s.tags.Nodup) (hr : r ∈ s.records) (hs : r.sounding = true)
    (hmine : (s.entry e).isMember r = true ∨ (s.entry e).isFill r = true) (hd : r.deck = some d) (hplay : (s.deck d).state = .playing)
    (hin : (s.deck d).fadeIn = none) (hbound : (s.deck d).bound = some r.tag) (halone : ∀ v ∈ s.records, v.deck = some d → v = r)
    (honly : ∀ i : DeckNo, (s.deck i).bound = some r.tag → i = d) :
    (s.guardLeft e).Sounds d r.tag { s.deck d with state := .fading, fadeOut := some ⟨0, 480, r.law, ⟨.truncated, .none⟩⟩ } none := by
  have hsounds := State.sounds_of_order hn hr hs (Deck.sounding_of_playing hplay) hbound
    (fun v hv hvd => by rw [halone v hv hvd]) honly
  have hfades : (s.guardFades e).Sounds d r.tag
      { s.deck d with state := .fading, fadeOut := some ⟨0, 480, r.law, ⟨.truncated, .none⟩⟩ } none := by
    refine askFades_fades (law := (·.law)) ?_ ?_ hd (fun v hv hvd => ?_) hsounds hplay hin (by decide)
    · exact List.mem_filter.mpr ⟨List.mem_filter.mpr ⟨hr, by simpa using hmine⟩, hs⟩
    · exact hn.sublist ((List.filter_sublist.trans List.filter_sublist).map _)
    · rw [halone v (List.mem_of_mem_filter (List.mem_of_mem_filter hv)) hvd]
  have hwait (tag : Nat) (htag : tag ∈ s.guardDrops e) : (s.guardFades e).Waits tag := by
    intro v hv hvt
    obtain ⟨w, hw, -, hun, hwt⟩ := State.mem_guardDrops.mp htag
    exact eq_of_tag hn hw (s.guardFades_records e v hv) (hvt.trans hwt.symm) ▸ hun
  obtain ⟨n, -, hmoves⟩ := State.moves_leaveAll (s := s.guardFades e) (gone := []) movesWhenTold_noFit ⟨.dropped, .noFit⟩ false
    (l := s.guardDrops e) (fine := True) (fun _ => State.guardFades_nodup hn e) fun _ =>
      ⟨State.nodup_guardDrops hn e, fun tag htag => ⟨List.not_mem_nil, hwait tag htag⟩⟩
  exact hmoves.sounds trivial hfades

theorem upTo_none {α : Type} {p : α → Bool} {l : List α} (h : ∀ x ∈ l, p x = false) : upTo p l = [] := by
  induction l with
  | nil => rfl
  | cons x l ih =>
    rw [upTo, h x (List.mem_cons_self ..), if_neg (by decide), ih fun y hy => h y (List.mem_cons_of_mem _ hy)]

/-- An air-time expiry that does not test due is not delivered. -/
theorem State.delivered_notDue {k : AirHandle} (h : ∀ x ∈ s.airExpiries, x.handle = k → isDue x.target s.now = false) :
    s.delivered k = [] := by
  refine upTo_none fun x hx => ?_
  obtain ⟨hmem, hdue⟩ := State.mem_dueAir (List.mem_of_mem_filter hx)
  refine beq_eq_false_iff_ne.mpr fun hk => ?_
  rw [h x hmem hk] at hdue
  cases hdue

/-- What the guard leaves of a break, in a state that its expiry has left. -/
theorem State.rejoinFired_spec (hst : (s.entry e).state = .declared ∨ (s.entry e).state = .running) :
    let x := s.rejoinFired e
    ((x.entry e).state = .ended ∧ (x.entry e).idHold = true ∧ (x.entry e).id = (s.entry e).id
      ∧ (x.entry e).fillState = .none ∧ (x.entry e).fillSnapshot = none ∧ (x.entry e).fillFade = none
      ∧ (x.entry e).projected = none ∧ (x.entry e).short = (s.entry e).short ∧ (x.entry e).overrunDrops = (s.entry e).overrunDrops)
    ∧ x.records = (s.guardLeft e).records ∧ x.decks = (s.guardLeft e).decks ∧ x.mix = (s.guardLeft e).mix
    ∧ (isDue (addAir (s.entry e).rejoin 480) s.now = false → ⟨.idHold e, addAir (s.entry e).rejoin 480⟩ ∈ x.airExpiries) := by
  intro x
  obtain ⟨v, hx⟩ := State.rejoinFired_eq hst
  have hx : x = _ := hx
  have hcore := s.guardLeft_entry e e
  have hnow : (s.guardLeft e).now = s.now := (s.after_guardLeft e).now_eq
  generalize s.guardLeft e = y at hx hcore hnow ⊢
  have hentry : ((((y.withReader v).cancelAir (.fillFade e)).setEntry e (y.entry e).ended).setAir (.idHold e)
      (addAir (s.entry e).rejoin 480)).entry e = (y.entry e).ended := by
    rw [State.setAir_eq]
    exact State.entry_setEntry_self _ e _
  rw [hx, hentry]
  refine ⟨⟨rfl, rfl, (congrArg BreakEntry.id hcore :), rfl, rfl, rfl, rfl, (congrArg BreakEntry.short hcore :),
    (congrArg BreakEntry.overrunDrops hcore :)⟩, ?_, ?_, ?_, fun hdue => ?_⟩
  · rw [State.setAir_eq]
    rfl
  · rw [State.setAir_eq]
    rfl
  · rw [State.setAir_eq]
    rfl
  · have hnow' : (((y.withReader v).cancelAir (.fillFade e)).setEntry e (y.entry e).ended).now = s.now := hnow
    rw [State.setAir_eq, hnow']
    refine List.mem_append_right _ ?_
    rw [hdue]
    exact List.mem_singleton_self _

/-! ### The expiries of a break -/

/-- A rejoin guard's expiry taken. -/
theorem rejoinGuard_acts {n : Nat} (hrun : s.phase = .running) (hn : s.tags.Nodup) (hdel : s.delivered (.rejoin e) = [⟨.rejoin e, n⟩])
    (hst : (s.entry e).state = .declared ∨ (s.entry e).state = .running) : ∃ x : State, exec (.rejoinGuard e) s = .next x.finish
      ∧ (x.entry e).state = .ended ∧ (x.entry e).idHold = true ∧ (x.entry e).id = (s.entry e).id
      ∧ (x.entry e).fillState = .none ∧ (x.entry e).fillSnapshot = none ∧ (x.entry e).fillFade = none
      ∧ (x.entry e).projected = none ∧ (x.entry e).short = (s.entry e).short ∧ (x.entry e).overrunDrops = (s.entry e).overrunDrops
      ∧ (∀ r ∈ s.records, r.unstarted = true → (s.entry e).isMember r = true ∨ (s.entry e).isFill r = true → r.tag ∉ x.tags)
      ∧ (∀ (r : CueRecord) (d : DeckNo), r ∈ s.records → r.sounding = true → (s.entry e).isMember r = true ∨ (s.entry e).isFill r = true →
          r.deck = some d → (s.deck d).state = .playing → (s.deck d).fadeIn = none → (s.deck d).fadeOut = none →
          (s.deck d).bound = some r.tag → (∀ v ∈ s.records, v.deck = some d → v = r) →
          (∀ e' : DeckNo, (s.deck e').bound = some r.tag → e' = d) →
          (x.deck d).state = .fading ∧ (x.deck d).fadeOut = some ⟨0, 480, r.law, ⟨.truncated, .none⟩⟩)
      ∧ (isDue (addAir (s.entry e).rejoin 480) s.now = false → ⟨.idHold e, addAir (s.entry e).rejoin 480⟩ ∈ x.airExpiries)
      ∧ s.After x := by
  have hexec := exec_rejoinGuard hrun e
  rw [State.airEvent_single hdel, State.airFired] at hexec
  refine ⟨_, hexec, ?_⟩
  have hspec := State.rejoinFired_spec (s := s.cancelAir (.rejoin e)) (e := e) hst
  have hafter := State.After.andThen (State.after_rejoinFired (s := s.cancelAir (.rejoin e)) e) (s.after_cancelAir _)
  generalize (s.cancelAir (.rejoin e)).rejoinFired e = x at hspec hafter ⊢
  obtain ⟨⟨h1, h2, h3, h4, h5, h6, h7, h8, h9⟩, hrecords, hdecks, -, hair⟩ := hspec
  refine ⟨h1, h2, h3, h4, h5, h6, h7, h8, h9, fun r hr hun hmine => ?_, fun r d hr hs hmine hd hplay hin _ hbound halone honly => ?_,
    hair, hafter⟩
  · rw [State.tags, hrecords]
    exact State.leaveAll_gone (State.mem_guardDrops.mpr ⟨r, hr, hmine, hun, rfl⟩) _ _ _ _
  · have hsounds := State.guardLeft_sounds (s := s.cancelAir (.rejoin e)) (e := e) hn hr hs hmine hd hplay hin hbound halone honly
    rw [State.deck_congr hdecks]
    exact ⟨hsounds.state, hsounds.fadeOut⟩

/-- Settles O54: the guard's fades and departures leave the break ended; the hold's end and the fill fade act alone. -/
theorem breakExpiriesActInTurn : Obligations.BreakExpiriesActInTurn := by
  unfold Obligations.BreakExpiriesActInTurn
  refine ⟨fun s e n hrun ⟨_, hn⟩ hdel hst => rejoinGuard_acts hrun hn hdel hst,
    fun s e hrun hrest => ⟨fun n hdel => ?_, fun hnot => ?_⟩,
    fun s e n f r d hrun hdel hf hr hd hplay hin hlt => ?_⟩
  · rw [exec_idHoldExpiry hrun, State.airEvent_single hdel]
    exact congrArg Host.Outcome.next (State.finish_atRest (hrest.of_decks rfl rfl rfl))
  · rw [exec_idHoldExpiry hrun, State.airEvent, State.delivered_notDue hnot]
  · rw [exec_fillFadeExpiry hrun, State.airEvent_single hdel, State.airFired]
    have hf' : ((s.cancelAir (.fillFade e)).entry e).fillFade = some f := hf
    have hr' : (s.cancelAir (.fillFade e)).fillRecord ((s.cancelAir (.fillFade e)).entry e) = some r := hr
    simp only [State.fillFadeFired, hf', hr', hd]
    rw [State.requestFade_playing (by exact hplay) (by exact hin) hlt, Deck.fadeTo_of_noFadeIn (by exact hin)]
    rfl

end Sys2Proof.Machine
end


section
/-! A fit as moves: what it drops, what it truncates, the fill it places. -/

namespace Sys2Proof.Machine

variable {s t u : State} {d : DeckNo} {e : EntryNo} {fine : Prop} {gone : List Nat}

/-! ### What a plan drops (R130 to R133) -/

/-- A record that a plan may drop: an unstarted member of the break. -/
def State.Droppable (s : State) (b : BreakEntry) (tag : Nat) : Prop :=
  ∃ r ∈ s.records, r.tag = tag ∧ r.unstarted = true ∧ b.isMember r = true

/-- The air time at which a candidate is projected to start (R131). -/
def FitPlan.point (plan : FitPlan) (now : Nat) (r : CueRecord) : Nat := match plan.prior with
  | none => now
  | some q => if r.kind = .followPrev then q.finish else q.segue

/-- A candidate dropped. -/
def FitPlan.dropping (plan : FitPlan) (tag : Nat) : FitPlan := { plan with drops := plan.drops ++ [tag] }

/-- A candidate kept with a truncation end, as the next prior. -/
def FitPlan.keeping (plan : FitPlan) (tag : Nat) (n : Option Nat) (finish segue : Nat) : FitPlan :=
  { plan with truncs := plan.truncs ++ [(tag, n)], prior := some ⟨tag, finish, segue⟩ }

theorem State.fitCandidate_none {r : CueRecord} (h : r.snapshot = none) (b : BreakEntry) (plan : FitPlan) :
    s.fitCandidate b plan r = plan := by
  simp only [State.fitCandidate, h]

theorem State.fitCandidate_some {r : CueRecord} {sn : Snapshot} (h : r.snapshot = some sn) (b : BreakEntry) (plan : FitPlan) :
    let p := plan.point s.now r
    let left := room b.rejoin p
    s.fitCandidate b plan r = if sn.cls = .advert then
        if sn.elen ≤ left then plan.keeping r.tag none (addAir p sn.elen) (addAir p sn.segue) else plan.dropping r.tag
      else if 24000 < left then
        if left < sn.elen then plan.keeping r.tag (some b.rejoin) b.rejoin (addAir p (min sn.segue left))
        else plan.keeping r.tag none (addAir p sn.elen) (addAir p sn.segue)
      else plan.dropping r.tag := by
  cases hp : plan.prior with
  | none => simp only [State.fitCandidate, FitPlan.point, FitPlan.keeping, FitPlan.dropping, h, hp]
  | some q => simp only [State.fitCandidate, FitPlan.point, FitPlan.keeping, FitPlan.dropping, h, hp]

/-- A candidate is dropped, kept with its truncation end, or passed over. -/
theorem State.fitCandidate_cases (s : State) (b : BreakEntry) (plan : FitPlan) (r : CueRecord) :
    s.fitCandidate b plan r = plan ∨ s.fitCandidate b plan r = plan.dropping r.tag
    ∨ ∃ n finish segue, s.fitCandidate b plan r = plan.keeping r.tag n finish segue := by
  cases h : r.snapshot with
  | none => exact .inl (State.fitCandidate_none h b plan)
  | some sn =>
    rw [State.fitCandidate_some h]
    split
    · split
      · exact .inr (.inr ⟨_, _, _, rfl⟩)
      · exact .inr (.inl rfl)
    · split
      · split
        · exact .inr (.inr ⟨_, _, _, rfl⟩)
        · exact .inr (.inr ⟨_, _, _, rfl⟩)
      · exact .inr (.inl rfl)

theorem State.foldl_fitCandidate_drops {P : Nat → Prop} (s : State) (b : BreakEntry) (l : List CueRecord) (plan : FitPlan)
    (hl : ∀ r ∈ l, P r.tag) (h : ∀ tag ∈ plan.drops, P tag) : ∀ tag ∈ (l.foldl (s.fitCandidate b) plan).drops, P tag := by
  induction l generalizing plan with
  | nil => exact h
  | cons r l ih =>
    refine ih _ (fun v hv => hl v (List.mem_cons_of_mem _ hv)) ?_
    obtain hc | hc | ⟨n, x, y, hc⟩ := s.fitCandidate_cases b plan r <;> rw [hc]
    · exact h
    · intro tag htag
      obtain htag | htag := List.mem_append.mp htag
      · exact h tag htag
      · exact List.mem_singleton.mp htag ▸ hl r (List.mem_cons_self ..)
    · exact h

theorem State.mem_planFit_drops {b : BreakEntry} : ∀ tag ∈ (s.planFit b).drops, s.Droppable b tag := by
  unfold State.planFit
  dsimp only
  split
  · refine s.foldl_fitCandidate_drops b _ _ (fun r hr => ?_) nofun
    obtain ⟨hr, hun⟩ := List.mem_filter.mp hr
    obtain ⟨hr, hm⟩ := List.mem_filter.mp hr
    exact ⟨r, hr, rfl, hun, hm⟩
  · rename_i a _
    refine s.foldl_fitCandidate_drops b _ _ (fun r hr => ?_) fun tag htag => ?_
    · obtain ⟨hr, hm⟩ := List.mem_filter.mp hr
      obtain ⟨hm, hun⟩ := Bool.and_eq_true _ _ ▸ hm
      exact ⟨r, (List.dropWhile_sublist _).subset (List.mem_of_mem_drop hr), rfl, hun, hm⟩
    · obtain ⟨r, hr, rfl⟩ := List.mem_map.mp htag
      obtain ⟨hr, hm⟩ := List.mem_filter.mp hr
      obtain ⟨hm, hun⟩ := Bool.and_eq_true _ _ ▸ hm
      exact ⟨r, (List.takeWhile_sublist _).subset hr, rfl, hun, hm⟩

/-- A fill that is to be dropped is the break's own, unstarted. -/
theorem State.planFill_drop {b : BreakEntry} {prior : Option Prior} {projected tag : Nat}
    (h : (s.planFill b prior projected).drop = some tag) :
    ∃ r, s.fillRecord b = some r ∧ r.tag = tag ∧ r.unstarted = true := by
  unfold State.planFill at h
  dsimp only at h
  split at h
  · split at h <;> cases h
  · rename_i r hr
    split at h
    · cases h
    · rename_i hs
      split at h
      · cases h
      · refine ⟨r, hr, Option.some.inj h, ?_⟩
        unfold CueRecord.sounding at hs
        unfold CueRecord.unstarted
        simpa using hs

theorem State.fillRecord_mem {b : BreakEntry} {r : CueRecord} (h : s.fillRecord b = some r) :
    r ∈ s.records ∧ r.tag = fillTag b.id := by
  have hp := List.find?_some h
  exact ⟨List.mem_of_find?_eq_some h, by simpa [BreakEntry.isFill] using hp⟩

/-! ### The stages of a fit (R129, R134) -/

/-- The running order that a fit is planned against: without those still to leave. -/
def State.fitView (s : State) (e : EntryNo) (gone : List Nat) : State :=
  { s.judgeFillFade e with records := (s.judgeFillFade e).records.filter fun r => !gone.contains r.tag }

/-- The plan of a fit. -/
def State.fitPlan (s : State) (e : EntryNo) (gone : List Nat) : FitPlan := (s.fitView e gone).planFit ((s.judgeFillFade e).entry e)

/-- The projected end. -/
def FitPlan.projected (p : FitPlan) (now : Nat) : Nat := match p.prior with | some q => q.finish | none => now

/-- The fill decision of a fit. -/
def State.fitFill (s : State) (e : EntryNo) (gone : List Nat) : FillPlan :=
  (s.fitView e gone).planFill ((s.judgeFillFade e).entry e) (s.fitPlan e gone).prior ((s.fitPlan e gone).projected (s.judgeFillFade e).now)

/-- The decisions noted at the entry. -/
def State.fitNoted (s : State) (e : EntryNo) (gone : List Nat) : State :=
  (s.judgeFillFade e).modEntry e fun b =>
    { b with
      projected := some ((s.fitPlan e gone).projected (s.judgeFillFade e).now), short := (s.fitFill e gone).short
      overrunDrops := b.overrunDrops || !(s.fitPlan e gone).drops.isEmpty }

/-- The tags of the records that a fit drops, in list order. -/
def State.fitDrops (s : State) (e : EntryNo) (gone : List Nat) : List Nat :=
  (s.fitNoted e gone).inListOrder ((s.fitPlan e gone).drops ++ (s.fitFill e gone).drop.toList)

/-- The state in which they have left. -/
def State.fitLeft (s : State) (e : EntryNo) (gone : List Nat) : State :=
  (s.fitNoted e gone).leaveAll ⟨.dropped, .noFit⟩ true tellNoFit gone (s.fitDrops e gone)

/-- The state with the truncation ends set. -/
def State.fitCut (s : State) (e : EntryNo) (gone : List Nat) : State :=
  (s.fitPlan e gone).truncs.foldl State.setTruncation (s.fitLeft e gone)

theorem State.fitWithout_place {q : Prior} (h : (s.entry e).state = .running) (hplace : (s.fitFill e gone).place = true)
    (hprior : (s.fitPlan e gone).prior = some q) : s.fitWithout e gone = (s.fitCut e gone).placeFill e q.tag gone := by
  have hp : (match (s.fitFill e gone).place, (s.fitPlan e gone).prior with
      | true, some q => (s.fitCut e gone).placeFill e q.tag gone
      | _, _ => s.fitCut e gone) = (s.fitCut e gone).placeFill e q.tag gone := by
    rw [hplace, hprior]
  exact (if_pos h).trans hp

theorem State.fitWithout_noPlace (h : (s.entry e).state = .running)
    (hplace : (s.fitFill e gone).place = false ∨ (s.fitPlan e gone).prior = none) : s.fitWithout e gone = s.fitCut e gone := by
  have hp : (match (s.fitFill e gone).place, (s.fitPlan e gone).prior with
      | true, some q => (s.fitCut e gone).placeFill e q.tag gone
      | _, _ => s.fitCut e gone) = s.fitCut e gone := by
    obtain h | h := hplace
    · rw [h]
    · rw [h]
      split
      · rename_i hq
        cases hq
      · rfl
  exact (if_pos h).trans hp

theorem State.fitWithout_notRunning (h : (s.entry e).state ≠ .running) (gone : List Nat) : s.fitWithout e gone = s := if_neg h

/-! ### The fill fade (R135) -/

theorem State.setEntry_self (s : State) (e : EntryNo) : s.setEntry e (s.entry e) = s := by
  have hset : s.breaks.entries.set e (s.entry e) = s.breaks.entries := vector_set_self _ _
  unfold State.setEntry
  rw [hset]

/-- The judgement of the fill fade changes the fade, its expiry and the reactions. -/
theorem State.judgeFillFade_eq (s : State) (e : EntryNo) : ∃ (f : Option FillFade) (l : List AirExpiry) (ts : List Task),
    s.judgeFillFade e = (s.setEntry e { s.entry e with fillFade := f }).withAir l ts := by
  have hsame : ∃ (f : Option FillFade) (l : List AirExpiry) (ts : List Task),
      s = (s.setEntry e { s.entry e with fillFade := f }).withAir l ts :=
    ⟨(s.entry e).fillFade, s.airExpiries, s.work, (s.setEntry_self e).symm⟩
  unfold State.judgeFillFade
  dsimp only
  split
  · exact hsame
  · split
    · split
      · split
        · exact ⟨none, _, _, rfl⟩
        · rw [State.setAir_eq]
          exact ⟨_, _, _, rfl⟩
      · exact ⟨none, _, _, rfl⟩
    · exact hsame

theorem State.moves_judgeFillFade (s : State) (e : EntryNo) : s.Move fine gone (s.judgeFillFade e) 0 := by
  obtain ⟨f, l, ts, h⟩ := s.judgeFillFade_eq e
  rw [h]
  exact .rest rfl rfl rfl rfl

theorem State.records_judgeFillFade (s : State) (e : EntryNo) : (s.judgeFillFade e).records = s.records := by
  obtain ⟨f, l, ts, h⟩ := s.judgeFillFade_eq e
  rw [h]
  rfl

/-! ### The stages as moves -/

theorem State.moves_modEntry (s : State) (e : EntryNo) (f : BreakEntry → BreakEntry) : s.Move fine gone (s.modEntry e f) 0 :=
  .rest rfl rfl rfl rfl

theorem State.moves_setTruncation (s : State) (x : Nat × Option Nat) : s.Moves fine gone (s.setTruncation x) 0 := by
  unfold State.setTruncation
  split
  · exact .refl
  · split
    · exact .refl
    · have hmod := (State.Move.truncEnd (fine := fine) (gone := gone) (s := s) x.1 x.2 rfl).many
      dsimp only
      split
      · split
        · exact hmod
        · refine hmod.trans_zero (State.Moves.trans_zero ?_ (State.shift_emit _ _).many.moves)
          unfold State.applyTruncation
          dsimp only
          split
          · split
            · exact .refl
            · exact State.Move.many (.trim _ _ (by rfl) (by rfl) (by rfl) (by rfl) rfl)
          · exact .refl
      · exact hmod

theorem State.moves_setTruncations (l : List (Nat × Option Nat)) (s : State) : s.Moves fine gone (l.foldl State.setTruncation s) 0 := by
  induction l generalizing s with
  | nil => exact .refl
  | cons x l ih => exact (s.moves_setTruncation x).trans_zero (ih _)

theorem State.find_insertAfter {after : Nat} {r v : CueRecord} (hnew : r.tag ∉ s.tags)
    (h : (({ s with records := insertAfter after r s.records } : State)).find r.tag = some v) : v = r := by
  obtain hv | hv := mem_insertAfter.mp (State.find_mem h)
  · exact hv
  · exact absurd (State.mem_tags.mpr ⟨v, hv, State.find_tag h⟩) hnew

/-- The fill that is placed, in the state that its judgement and the bindings find (R40). -/
def State.fillJoined (s : State) (e : EntryNo) (after : Nat) (sn : Snapshot) : State :=
  ({ s with records := insertAfter after (fillRecordOf (s.entry e) sn) s.records } : State).modEntry e fun b => { b with fillStatus := .placed }

theorem State.placeFill_none (h : (s.entry e).fillSnapshot = none) (after : Nat) (gone : List Nat) : s.placeFill e after gone = s := by
  simp only [State.placeFill, h]

theorem State.placeFill_refused {sn : Snapshot} (h : (s.entry e).fillSnapshot = some sn)
    (hfull : 48 ≤ s.records.length ∨ fillTag (s.entry e).id ∈ s.tags) (after : Nat) (gone : List Nat) :
    s.placeFill e after gone = s.modEntry e fun b => { b with short := true } := by
  have hc : 48 ≤ s.records.length ∨ (s.find (fillRecordOf (s.entry e) sn).tag).isSome = true := by
    refine hfull.imp_right fun hm => ?_
    rw [← Option.ne_none_iff_isSome, ne_eq, State.find_none_iff, not_not]
    exact hm
  simp only [State.placeFill, h, if_pos hc]

theorem State.placeFill_joins {sn : Snapshot} (h : (s.entry e).fillSnapshot = some sn) (hroom : s.records.length < 48)
    (hnew : fillTag (s.entry e).id ∉ s.tags) (after : Nat) (gone : List Nat) :
    s.placeFill e after gone = State.bindHeld gone bindFuel ((s.fillJoined e after sn).judgeNew (fillTag (s.entry e).id)) := by
  have hc : ¬ (48 ≤ s.records.length ∨ (s.find (fillRecordOf (s.entry e) sn).tag).isSome = true) := by
    rw [not_or, Bool.not_eq_true, Option.isSome_eq_false_iff, Option.isNone_iff_eq_none, State.find_none_iff]
    exact ⟨Nat.not_le.mpr hroom, hnew⟩
  simp only [State.placeFill, h, if_neg hc]
  rfl

/-- The judgement of a fill that has joined, and the bindings after it, only mark and bind. -/
theorem State.shift_fillJoined {sn : Snapshot} (hnew : fillTag (s.entry e).id ∉ s.tags) (after : Nat) (gone : List Nat) :
    (s.fillJoined e after sn).Shifts
      (State.bindHeld gone bindFuel ((s.fillJoined e after sn).judgeNew (fillTag (s.entry e).id))) := by
  refine State.Shifts.trans (State.shift_judgeNew _ _ fun r hr => ?_) (State.shift_bindHeld _ _ _)
  have hr' : r = fillRecordOf (s.entry e) sn := State.find_insertAfter (r := fillRecordOf (s.entry e) sn) hnew hr
  rw [hr']
  rfl

theorem State.moves_placeFill (s : State) (e : EntryNo) (after : Nat) (left : List Nat) :
    ∃ n ≤ 1, s.Moves fine gone (s.placeFill e after left) n := by
  cases h : (s.entry e).fillSnapshot with
  | none =>
    rw [State.placeFill_none h]
    exact ⟨0, Nat.zero_le _, .refl⟩
  | some sn =>
    by_cases hroom : 48 ≤ s.records.length ∨ fillTag (s.entry e).id ∈ s.tags
    · rw [State.placeFill_refused h hroom]
      exact ⟨0, Nat.zero_le _, (s.moves_modEntry e _).many⟩
    · obtain ⟨hlt, hnew⟩ := not_or.mp hroom
      rw [State.placeFill_joins h (Nat.not_le.mp hlt) hnew]
      have hadd : s.Move fine gone { s with records := insertAfter after (fillRecordOf (s.entry e) sn) s.records } 1 :=
        .add after _ hnew (Nat.le_add_right _ _) rfl rfl rfl
      refine ⟨1, le_rfl, (hadd.many.trans_zero ?_).trans_zero (State.shift_fillJoined hnew after left).moves⟩
      exact (State.moves_modEntry _ e _).many

theorem State.records_fitNoted (s : State) (e : EntryNo) (gone : List Nat) : (s.fitNoted e gone).records = s.records :=
  s.records_judgeFillFade e

/-- What a fit drops stands unstarted in the order, and is not among those still to leave. -/
theorem State.mem_fitDrops {tag : Nat} (h : tag ∈ s.fitDrops e gone) :
    tag ∉ gone ∧ ∃ r ∈ s.records, r.tag = tag ∧ r.unstarted = true := by
  have hview {r : CueRecord} (hr : r ∈ (s.fitView e gone).records) : r.tag ∉ gone ∧ r ∈ s.records := by
    obtain ⟨hr, hg⟩ := List.mem_filter.mp hr
    rw [State.records_judgeFillFade] at hr
    exact ⟨by simpa using hg, hr⟩
  have hmem : tag ∈ (s.fitPlan e gone).drops ++ (s.fitFill e gone).drop.toList := by
    obtain ⟨-, hc⟩ := List.mem_filter.mp h
    simpa using hc
  obtain hmem | hmem := List.mem_append.mp hmem
  · obtain ⟨r, hr, rfl, hun, -⟩ := State.mem_planFit_drops tag hmem
    obtain ⟨hg, hr⟩ := hview hr
    exact ⟨hg, r, hr, rfl, hun⟩
  · obtain ⟨r, hr, rfl, hun⟩ := State.planFill_drop (Option.mem_toList.mp hmem)
    obtain ⟨hr, -⟩ := State.fillRecord_mem hr
    obtain ⟨hg, hr⟩ := hview hr
    exact ⟨hg, r, hr, rfl, hun⟩

theorem State.nodup_fitDrops (h : s.tags.Nodup) (e : EntryNo) (gone : List Nat) : (s.fitDrops e gone).Nodup := by
  have hn : ((s.fitNoted e gone).records.map (·.tag)).Nodup := by
    rw [State.records_fitNoted]
    exact h
  exact hn.filter _

theorem State.moves_fitNoted (s : State) (e : EntryNo) (gone left : List Nat) : s.Moves fine left (s.fitNoted e gone) 0 :=
  (s.moves_judgeFillFade e).many.trans_zero (State.moves_modEntry _ e _).many

theorem State.moves_fitLeft (hn : fine → s.tags.Nodup) (e : EntryNo) (gone : List Nat) : s.Moves fine gone (s.fitLeft e gone) 0 := by
  obtain ⟨n, hle, hm⟩ := State.moves_leaveAll (s := s.fitNoted e gone) (gone := gone) (fine := fine) movesWhenTold_noFit
    ⟨.dropped, .noFit⟩ true (l := s.fitDrops e gone) (fun hf => (State.moves_fitNoted (fine := fine) s e gone gone).nodup (hn hf)) fun hf => by
      refine ⟨State.nodup_fitDrops (hn hf) e gone, fun tag htag => ?_⟩
      obtain ⟨hg, r, hr, hrt, hun⟩ := State.mem_fitDrops htag
      refine ⟨hg, fun v hv hvt => ?_⟩
      rw [State.records_fitNoted] at hv
      exact eq_of_tag (hn hf) hr hv (hvt.trans hrt.symm) ▸ hun
  have hzero : n = 0 := by omega
  exact (s.moves_fitNoted e gone gone).trans_zero (hzero ▸ hm)

theorem State.moves_fitCut (hn : fine → s.tags.Nodup) (e : EntryNo) (gone : List Nat) : s.Moves fine gone (s.fitCut e gone) 0 :=
  (State.moves_fitLeft hn e gone).trans_zero (State.moves_setTruncations _ _)

/-- A fit is made of moves, of which at most one brings a record in. -/
theorem State.moves_fitWithout (hn : fine → s.tags.Nodup) (e : EntryNo) (gone : List Nat) :
    ∃ n ≤ 1, s.Moves fine gone (s.fitWithout e gone) n := by
  by_cases hst : (s.entry e).state = .running
  · have hcut := State.moves_fitCut hn e gone
    by_cases hplace : (s.fitFill e gone).place = false ∨ (s.fitPlan e gone).prior = none
    · rw [State.fitWithout_noPlace hst hplace]
      exact ⟨0, Nat.zero_le _, hcut⟩
    · obtain ⟨hp, hq⟩ := not_or.mp hplace
      obtain ⟨q, hq⟩ := Option.ne_none_iff_exists'.mp hq
      rw [State.fitWithout_place hst (by simpa using hp) hq]
      obtain ⟨n, hle, hm⟩ := State.moves_placeFill (fine := fine) (gone := gone) (s.fitCut e gone) e q.tag gone
      exact ⟨n, hle, hcut.zero_trans hm⟩
  · rw [State.fitWithout_notRunning hst]
    exact ⟨0, Nat.zero_le _, .refl⟩

/-- An overtaken record's departure is told with at most one fit. -/
theorem movesWhenTold_tellLeft : MovesWhenTold fine State.tellLeft 1 := by
  intro s r l hn
  unfold State.tellLeft
  split
  · exact ⟨0, Nat.zero_le _, .refl⟩
  · unfold State.memberLeft
    split
    · exact ⟨0, Nat.zero_le _, .refl⟩
    · split
      · exact State.moves_fitWithout hn _ l
      · exact ⟨0, Nat.zero_le _, .refl⟩

end Sys2Proof.Machine
end


section
/-! The start of a HARD_AT record: the displacement of what sounds, and the overtaking of what waits. -/

namespace Sys2Proof.Machine

variable {s t u : State} {d : DeckNo} {r : CueRecord}

/-! ### The records that displacement leaves -/

/-- Displacement takes records out by their tags. -/
theorem askFades_filter {len : Nat} {law : CueRecord → Law} {c : Cause} (l : List CueRecord) (s : State) :
    ∃ p : Nat → Bool, (l.foldl (State.askFade len law c) s).records = s.records.filter fun v => p v.tag := by
  refine askFades_keep (P := fun t => ∃ p : Nat → Bool, t.records = s.records.filter fun v => p v.tag) (fun u t e h ⟨p, hp⟩ => ?_) l s
    ⟨fun _ => true, (List.filter_eq_self.mpr fun _ _ => rfl).symm⟩
  cases h with
  | none ht => exact ⟨p, ht ▸ hp⟩
  | fades x _ _ hrecords => exact ⟨p, hrecords.trans hp⟩
  | ends tag r _ _ _ hgone _ =>
    refine ⟨fun x => x != tag && p x, ?_⟩
    rw [hgone.records, hp, List.filter_filter]

/-- What stands before a mark in a list still does when others are taken out. -/
theorem mem_takeWhile_filter {α : Type} {p q : α → Bool} {l : List α} {a : α} (h : a ∈ l.takeWhile q) (hp : p a = true) :
    a ∈ (l.filter p).takeWhile q := by
  induction l with
  | nil => cases h
  | cons x l ih =>
    cases hx : q x with
    | false => rw [List.takeWhile_cons_of_neg (by simp [hx])] at h; cases h
    | true =>
      rw [List.takeWhile_cons_of_pos hx] at h
      obtain rfl | h := List.mem_cons.mp h
      · rw [List.filter_cons_of_pos hp, List.takeWhile_cons_of_pos hx]
        exact List.mem_cons_self ..
      · by_cases hpx : p x = true
        · rw [List.filter_cons_of_pos hpx, List.takeWhile_cons_of_pos hx]
          exact List.mem_cons_of_mem _ (ih h)
        · rw [List.filter_cons_of_neg hpx]
          exact ih h

/-! ### Those who leave are gone, and logged -/

/-- After a record has left, what is told, judged and bound brings no tag but a fill's. -/
theorem State.after_leaveOne_rest {tag : Nat} (h : s.find tag = some r) {told : State → CueRecord → List Nat → State}
    (ht : ∀ (s : State) (r : CueRecord) (l : List Nat), s.After (told s r l)) (c : Cause) (byFit : Bool) (rest : List Nat) :
    (s.removeRecord tag c byFit).After (s.leaveOne c byFit told tag rest) := by
  simp only [State.leaveOne, h]
  refine .andThen (State.after_bindHeld _ _ _) ?_
  split
  · exact ht _ r rest
  · exact .andThen (State.after_rejudge _) (ht _ r rest)

theorem State.After.gone {tag : Nat} (h : s.After t) (hlt : tag < 65280) (hn : tag ∉ s.tags) : tag ∉ t.tags := fun hm =>
  (h.tags tag hm).elim hn (Nat.not_le.mpr hlt)

theorem State.leaveAll_left {tag : Nat} (hlt : tag < 65280) {told : State → CueRecord → List Nat → State}
    (ht : ∀ (s : State) (r : CueRecord) (l : List Nat), s.After (told s r l)) (c : Cause) (byFit : Bool) (gone : List Nat)
    {l : List Nat} (h : tag ∈ l) (s : State) : tag ∉ (s.leaveAll c byFit told gone l).tags := by
  induction l generalizing s with
  | nil => cases h
  | cons x rest ih =>
    obtain rfl | h := List.mem_cons.mp h
    · refine (State.after_leaveAll c byFit told ht gone rest _).gone hlt ?_
      cases hf : s.find tag with
      | none =>
        rw [State.leaveOne_absent hf]
        exact (s.find_none_iff tag).mp hf
      | some r =>
        refine (State.after_leaveOne_rest hf ht c byFit _).gone hlt ?_
        rw [(State.removeRecord_removed hf c byFit).tags]
        simp
    · exact ih h _

/-- An unstarted record that leaves with room in the log has its entry there. -/
theorem State.removeRecord_logged {tag : Nat} (h : s.find tag = some r) (hr : r.unstarted = true) (hroom : s.log.records.length < 32)
    (c : Cause) (byFit : Bool) : ∃ a ∈ (s.removeRecord tag c byFit).log.records, a.tag = tag ∧ a.outcome = c.outcome ∧ a.reason = c.reason := by
  obtain ⟨-, hlog, -, -⟩ := State.removeRecord_leaves h c byFit
  have hstored := (State.storeAsRun_room hroom (s.asRunOf r c)).records
  rw [hlog, hstored, State.asRunOf_unstarted hr]
  exact ⟨_, List.mem_append_right _ (List.mem_singleton_self _), State.find_tag h, rfl, rfl⟩

/-- Of unstarted records that leave together each has its entry, when the log has room for all of them and what joins in between. -/
theorem State.leaveAll_logged {told : State → CueRecord → List Nat → State} {k : Nat}
    (ht : ∀ (s : State) (r : CueRecord) (l : List Nat), s.After (told s r l)) (hm : MovesWhenTold True told k) (c : Cause) (byFit : Bool)
    {tag : Nat} {l : List Nat} (s : State) (hn : s.tags.Nodup) (hl : l.Nodup) (hw : ∀ x ∈ l, s.Waits x)
    (h : tag ∈ l) (hp : tag ∈ s.tags) (hroom : s.log.records.length + s.records.length + l.length * k ≤ 32) :
    ∃ a ∈ (s.leaveAll c byFit told [] l).log.records, a.tag = tag ∧ a.outcome = c.outcome ∧ a.reason = c.reason := by
  induction l generalizing s with
  | nil => cases h
  | cons x rest ih =>
    obtain ⟨hx, hrest⟩ := List.nodup_cons.mp hl
    rw [State.leaveAll, List.append_nil]
    obtain rfl | h := List.mem_cons.mp h
    · cases hf : s.find tag with
      | none => exact absurd hp ((s.find_none_iff tag).mp hf)
      | some r =>
        have hpos : 0 < s.records.length := List.length_pos_of_mem (State.find_mem hf)
        have hun : r.unstarted = true := hw tag (List.mem_cons_self ..) r (State.find_mem hf) (State.find_tag hf)
        obtain ⟨a, ha, hfields⟩ := State.removeRecord_logged hf hun (by omega) c byFit
        have hafter := (State.after_leaveOne_rest hf ht c byFit rest).trans (State.after_leaveAll c byFit told ht [] rest _)
        exact ⟨a, hafter.appends.subset ha, hfields⟩
    · obtain ⟨n, hnk, hmoves⟩ := State.moves_leaveOne (s := s) (rest := rest) hm c byFit (tag := x) (fun _ => hn)
        fun _ => ⟨hx, hw x (List.mem_cons_self ..)⟩
      have hcount := hmoves.count
      rw [List.length_cons, Nat.succ_mul] at hroom
      exact ih _ (hmoves.nodup hn) hrest (fun y hy => hmoves.waits (hw y (List.mem_cons_of_mem _ hy))) h
        (hmoves.stays trivial h hp) (by omega)

/-! ### Displacement and overtaking (R46) -/

/-- The state with what sounds displaced, before the overtaking. -/
def State.displaced (s : State) (r : CueRecord) : State := (s.modRecord r.tag fun r => { r with displaced := true }).displace r

/-- The fade-outs of displacement. -/
theorem State.displace_eq (s : State) (r : CueRecord) : s.displace r
    = (s.records.filter fun x => x.sounding && x.group == r.group && x.tag != r.tag).foldl
        (State.askFade r.displace (fun _ => .log) ⟨.faded, .displaced⟩) s := rfl

/-- The records before displacement, its mark on the record apart. -/
def CueRecord.noteDisplaced (tag : Nat) (v : CueRecord) : CueRecord := if v.tag = tag then { v with displaced := true } else v

theorem CueRecord.noteDisplaced_same (tag : Nat) (v : CueRecord) : (v.noteDisplaced tag).tag = v.tag
    ∧ (v.noteDisplaced tag).group = v.group ∧ (v.noteDisplaced tag).unstarted = v.unstarted
    ∧ (v.noteDisplaced tag).sounding = v.sounding ∧ (v.noteDisplaced tag).deck = v.deck
    ∧ (v.noteDisplaced tag).triggered = v.triggered := by
  unfold CueRecord.noteDisplaced
  split
  · exact ⟨rfl, rfl, rfl, rfl, rfl, rfl⟩
  · exact ⟨rfl, rfl, rfl, rfl, rfl, rfl⟩

theorem State.tags_noteDisplaced (s : State) (tag : Nat) : (s.modRecord tag fun r => { r with displaced := true }).tags = s.tags :=
  s.tags_modRecord _ _ fun _ => rfl

theorem State.displaced_records (s : State) (r : CueRecord) : ∃ p : Nat → Bool,
    (s.displaced r).records = (s.records.map (CueRecord.noteDisplaced r.tag)).filter fun v => p v.tag :=
  askFades_filter _ _

/-- An earlier unstarted record of the group that displacement leaves is overtaken. -/
theorem State.mem_earlierUnstarted {v : CueRecord} (hv : v ∈ s.records.takeWhile fun v => v.tag != r.tag) (hun : v.unstarted = true)
    (hg : v.group = r.group) (hp : v.tag ∈ (s.displaced r).tags) : v.tag ∈ (s.displaced r).earlierUnstarted r := by
  obtain ⟨p, hrecords⟩ := s.displaced_records r
  obtain ⟨htag, hgroup, hunst, -⟩ := v.noteDisplaced_same r.tag
  have hpv : p v.tag = true := by
    obtain ⟨w, hw, hwt⟩ := State.mem_tags.mp hp
    rw [hrecords] at hw
    exact hwt ▸ (List.mem_filter.mp hw).2
  have hmap : (v.noteDisplaced r.tag) ∈ (s.records.map (CueRecord.noteDisplaced r.tag)).takeWhile fun v => v.tag != r.tag := by
    have hcomp : (fun v : CueRecord => v.tag != r.tag) ∘ CueRecord.noteDisplaced r.tag = fun v => v.tag != r.tag :=
      funext fun w => by rw [Function.comp, (w.noteDisplaced_same r.tag).1]
    rw [List.takeWhile_map, hcomp]
    exact List.mem_map_of_mem hv
  refine List.mem_map.mpr ⟨v.noteDisplaced r.tag, List.mem_filter.mpr ⟨?_, ?_⟩, htag⟩
  · rw [hrecords]
    exact mem_takeWhile_filter hmap (by rw [htag]; exact hpv)
  · rw [hunst, hgroup, hun, hg]
    simp

theorem State.nodup_displaced (hn : s.tags.Nodup) (r : CueRecord) : (s.displaced r).tags.Nodup := by
  obtain ⟨p, hrecords⟩ := s.displaced_records r
  rw [State.tags, hrecords]
  refine ((List.filter_sublist).map _).nodup ?_
  rw [List.map_map]
  exact (List.map_congr_left fun (v : CueRecord) _ => (v.noteDisplaced_same r.tag).1).symm ▸ hn

theorem State.overtaken_waits (hn : s.tags.Nodup) (r : CueRecord) : ∀ x ∈ s.earlierUnstarted r, s.Waits x := by
  intro x hx v hv hvt
  obtain ⟨w, hw, rfl⟩ := List.mem_map.mp hx
  obtain ⟨hw, hun⟩ := List.mem_filter.mp hw
  obtain ⟨hun, -⟩ := Bool.and_eq_true _ _ ▸ hun
  exact eq_of_tag hn ((List.takeWhile_sublist _).subset hw) hv hvt ▸ hun

theorem State.overtaken_sublist (s : State) (r : CueRecord) : (s.earlierUnstarted r).Sublist s.tags :=
  (List.filter_sublist.trans (List.takeWhile_sublist _)).map _

/-- Displacement and overtaking as moves after the fades, for a list with distinct tags when it matters. -/
theorem State.moves_overtake {fine : Prop} (hn : fine → s.tags.Nodup) (r : CueRecord) : ∃ n, (s.displaced r).Moves fine []
    (s.displaceAndOvertake r) n := by
  have hnd (hf : fine) := State.nodup_displaced (hn hf) r
  obtain ⟨n, -, hm⟩ := State.moves_leaveAll (s := s.displaced r) (gone := []) (fine := fine) movesWhenTold_tellLeft
    ⟨.dropped, .overtaken⟩ false (l := (s.displaced r).earlierUnstarted r) hnd fun hf =>
      ⟨(State.overtaken_sublist _ r).nodup (hnd hf), fun x hx => ⟨List.not_mem_nil, State.overtaken_waits (hnd hf) r x hx⟩⟩
  exact ⟨n, hm⟩

/-- A displaced item is in its fade-out when the others have been overtaken. -/
theorem State.displaced_sounds {v : CueRecord} (hn : s.tags.Nodup) (hv : v ∈ s.records) (hvr : v.tag ≠ r.tag) (hs : v.sounding = true)
    (hg : v.group = r.group) (hd : v.deck = some d) (hlen : 0 < r.displace) (hplay : (s.deck d).state = .playing)
    (hin : (s.deck d).fadeIn = none) (hbound : (s.deck d).bound = some v.tag) (halone : ∀ w ∈ s.records, w.deck = some d → w.tag = v.tag)
    (honly : ∀ i : DeckNo, (s.deck i).bound = some v.tag → i = d) : (s.displaceAndOvertake r).Sounds d v.tag
      { s.deck d with state := .fading, fadeOut := some ⟨0, r.displace, .log, ⟨.faded, .displaced⟩⟩ } none := by
  have hsounds := State.sounds_of_order hn hv hs (Deck.sounding_of_playing hplay) hbound halone honly
  have hnoted : (s.modRecord r.tag fun r => { r with displaced := true }).Sounds d v.tag (s.deck d) s.mix.requests[d] := by
    refine hsounds.map (f := CueRecord.noteDisplaced r.tag) rfl (fun w => (w.noteDisplaced_same r.tag).1) (fun w _ => ?_) (fun w _ _ => ?_)
      rfl rfl rfl rfl (fun _ => id) rfl
    · rw [(w.noteDisplaced_same r.tag).2.2.2.2.1]
      exact id
    · exact (w.noteDisplaced_same r.tag).2.2.2.1
  have hmem : v ∈ (s.modRecord r.tag fun r => { r with displaced := true }).records :=
    List.mem_map.mpr ⟨v, hv, if_neg hvr⟩
  have hnotedNodup : (s.modRecord r.tag fun r => { r with displaced := true }).tags.Nodup := by
    rw [State.tags_noteDisplaced]
    exact hn
  have hfades : (s.displaced r).Sounds d v.tag
      { s.deck d with state := .fading, fadeOut := some ⟨0, r.displace, .log, ⟨.faded, .displaced⟩⟩ } none := by
    rw [State.displaced, State.displace_eq]
    refine askFades_fades (r := v) (law := fun _ => .log) (List.mem_filter.mpr ⟨hmem, ?_⟩) (hnotedNodup.sublist (List.filter_sublist.map _)) hd
      (fun w hw hwd => hnoted.mine w (List.mem_of_mem_filter hw) hwd) hnoted hplay hin hlen
    simp [hs, hg, hvr]
  obtain ⟨n, hm⟩ := State.moves_overtake (fine := True) (fun _ => hn) r
  exact hm.sounds trivial hfades

/-- An overtaken record has its entry. -/
theorem State.overtaken_logged {v : CueRecord} (hn : s.tags.Nodup) (hroom : s.log.records.length + 2 * s.records.length ≤ 32)
    (hv : v ∈ s.records.takeWhile fun v => v.tag != r.tag) (hun : v.unstarted = true) (hg : v.group = r.group) (hs : s.Silent v.tag) :
    ∃ a ∈ (s.displaceAndOvertake r).log.records, a.tag = v.tag ∧ a.outcome = .dropped ∧ a.reason = .overtaken := by
  have hmem : v.tag ∈ (s.modRecord r.tag fun r => { r with displaced := true }).tags := by
    rw [State.tags_noteDisplaced]
    exact State.mem_tags.mpr ⟨v, (List.takeWhile_sublist _).subset hv, rfl⟩
  obtain ⟨-, hp, hcount⟩ : (s.displaced r).Silent v.tag ∧ v.tag ∈ (s.displaced r).tags
      ∧ (s.displaced r).log.records.length + (s.displaced r).records.length ≤ s.log.records.length + s.records.length := by
    refine askFades_keep (P := fun t => t.Silent v.tag ∧ v.tag ∈ t.tags
      ∧ t.log.records.length + t.records.length ≤ s.log.records.length + s.records.length)
      (fun u t e h ⟨h1, h2, h3⟩ => ⟨h.silent h1, h.stays h1 h2, h.count.trans h3⟩) _ _ ⟨hs, hmem, ?_⟩
    rw [State.modRecord_records, List.length_map]
    exact le_rfl
  have hnd := State.nodup_displaced hn r
  have hl := State.overtaken_sublist (s.displaced r) r
  have hlen : ((s.displaced r).earlierUnstarted r).length ≤ s.records.length := by
    obtain ⟨p, hrecords⟩ := s.displaced_records r
    refine hl.length_le.trans ?_
    rw [State.tags, List.length_map, hrecords]
    exact (List.length_filter_le _ _).trans (List.length_map _).le
  have hsum : (s.displaced r).log.records.length + (s.displaced r).records.length
      + ((s.displaced r).earlierUnstarted r).length * 1 ≤ 32 := by
    omega
  exact State.leaveAll_logged State.tellLeft_after movesWhenTold_tellLeft ⟨.dropped, .overtaken⟩ false (s.displaced r) hnd
    (hl.nodup hnd) (State.overtaken_waits hnd r) (State.mem_earlierUnstarted hv hun hg hp) hp hsum

/-- An overtaken record is gone, unless it is a fill. -/
theorem State.overtaken_gone {v : CueRecord} (hv : v ∈ s.records.takeWhile fun v => v.tag != r.tag) (hun : v.unstarted = true)
    (hg : v.group = r.group) (hlt : v.tag < 65280) : v.tag ∉ (s.displaceAndOvertake r).tags := by
  by_cases hp : v.tag ∈ (s.displaced r).tags
  · exact State.leaveAll_left hlt State.tellLeft_after _ _ _ (State.mem_earlierUnstarted hv hun hg hp) _
  · exact (State.after_leaveAll _ _ _ State.tellLeft_after _ _ _).gone hlt hp

/-- A mark set before displacement and overtaking is there after them. -/
theorem State.overtake_marked {tag : Nat} (hlt : tag < 65280) (h : s.IsMarked tag) : (s.displaceAndOvertake r).IsMarked tag := by
  obtain ⟨n, hm⟩ := State.moves_overtake (s := s) (fine := False) nofun r
  refine hm.marked hlt fun v hv hvt => ?_
  obtain ⟨p, hrecords⟩ := s.displaced_records r
  rw [hrecords] at hv
  obtain ⟨w, hw, rfl⟩ := List.mem_map.mp (List.mem_of_mem_filter hv)
  obtain ⟨htag, -, -, -, -, hmark⟩ := w.noteDisplaced_same r.tag
  exact hmark.trans (h w hw (htag.symm.trans hvt))

/-! ### A waiting record's mark -/

/-- The mark of a record that waits for a deck (R46). -/
theorem State.markWaiting_eq (s : State) (r : CueRecord) : s.markWaiting r
    = if r.state = .headerWait ∨ r.state = .queued then s.markTriggered r.tag else s := by
  unfold State.markWaiting
  cases r.state <;> rfl

theorem State.shift_markWaiting (s : State) (r : CueRecord) : s.Shifts (s.markWaiting r) := by
  rw [State.markWaiting_eq]
  split
  · exact s.shift_markTriggered _
  · exact .refl s

theorem State.markWaiting_decks (s : State) (r : CueRecord) : (s.markWaiting r).decks = s.decks := by
  rw [State.markWaiting_eq]
  split <;> rfl

theorem State.markTriggered_marked (s : State) (tag : Nat) : (s.markTriggered tag).IsMarked tag := by
  intro v hv hvt
  obtain ⟨w, hw, rfl⟩ := List.mem_map.mp hv
  split at hvt
  · rename_i hwt
    rw [if_pos hwt]
  · rename_i hwt
    exact absurd hvt hwt

/-- A record other than the one marked is as it was. -/
theorem State.markWaiting_mem {v : CueRecord} (hv : v ∈ s.records) (hne : v.tag ≠ r.tag) : v ∈ (s.markWaiting r).records := by
  rw [State.markWaiting_eq]
  split
  · exact List.mem_map.mpr ⟨v, hv, if_neg hne⟩
  · exact hv

theorem State.markWaiting_from {w : CueRecord} (hw : w ∈ (s.markWaiting r).records) :
    ∃ v ∈ s.records, v.tag = w.tag ∧ v.deck = w.deck := by
  rw [State.markWaiting_eq] at hw
  split at hw
  · obtain ⟨v, hv, rfl⟩ := List.mem_map.mp hw
    refine ⟨v, hv, ?_⟩
    split
    · exact ⟨rfl, rfl⟩
    · exact ⟨rfl, rfl⟩
  · exact ⟨w, hw, rfl, rfl⟩

theorem State.markWaiting_before {v : CueRecord} (hv : v ∈ s.records.takeWhile fun v => v.tag != r.tag) :
    v ∈ (s.markWaiting r).records.takeWhile fun v => v.tag != r.tag := by
  have hne : v.tag ≠ r.tag := by simpa using List.mem_takeWhile_imp hv
  rw [State.markWaiting_eq]
  split
  · have hcomp : (fun v : CueRecord => v.tag != r.tag) ∘ (fun w => if w.tag = r.tag then { w with triggered := true } else w)
        = fun v => v.tag != r.tag := funext fun w => by
      dsimp only [Function.comp]
      split <;> rfl
    show v ∈ (s.records.map _).takeWhile _
    rw [List.takeWhile_map, hcomp]
    exact List.mem_map.mpr ⟨v, hv, if_neg hne⟩
  · exact hv

theorem State.trigger_displaces {tag : Nat} (hf : s.find tag = some r) (hun : r.unstarted = true) (hlive : s.isLive = true)
    (hk : r.kind = .hardAt) (hd : r.displaced = false) : s.trigger tag = ((s.markWaiting r).displaceAndOvertake r).emit [.answer tag] := by
  have hnow : r.displacesNow = true := by simp [CueRecord.displacesNow, hk, hd]
  simp only [State.trigger, hf, hun, hlive, hnow, Bool.not_true, Bool.false_eq_true, if_false, if_true]

/-- Settles O53: the start time triggers the record, whose displacement and overtaking come before its answer. -/
theorem hardStartsOvertake : Obligations.HardStartsOvertake := by
  intro s tag n r hrun hlive hf hun hk hd hdel
  obtain rfl := State.find_tag hf
  have hf' : (s.cancelAir (.startTime r.tag)).find r.tag = some r := hf
  have htrigger := State.trigger_displaces hf' hun hlive hk hd
  have hexec := exec_startTimeExpiry hrun r.tag
  rw [State.airEvent_single hdel, State.airFired, State.startTimeFired, hf'] at hexec
  dsimp only at hexec
  rw [hk] at hexec
  dsimp only at hexec
  rw [htrigger] at hexec
  have hshift := (s.cancelAir (.startTime r.tag)).shift_markWaiting r
  obtain ⟨f, hrecords, hfs⟩ := hshift.records
  have htags : ((s.cancelAir (.startTime r.tag)).markWaiting r).tags = s.tags := hshift.tags
  have hdeck (i : DeckNo) : ((s.cancelAir (.startTime r.tag)).markWaiting r).deck i = s.deck i :=
    State.deck_congr (State.markWaiting_decks _ _) i
  have hlog : ((s.cancelAir (.startTime r.tag)).markWaiting r).log = s.log := hshift.rests.1
  refine ⟨_, hexec, ?_, fun v hv hvun hg hlt => ?_, fun hst hlt v hv hvt => ?_, ?_, ?_⟩
  · exact .andThen (State.after_displaceAndOvertake r) (.andThen (State.after_markWaiting r) (s.after_cancelAir _))
  · exact State.overtaken_gone (State.markWaiting_before hv) hvun hg hlt
  · refine State.overtake_marked hlt ?_ v hv hvt
    rw [State.markWaiting_eq, if_pos hst]
    exact State.markTriggered_marked _ _
  · intro ⟨_, hn⟩ v d hv hvr hs hg hvd hlen hplay hin _ hbound halone honly
    have hmem : v ∈ ((s.cancelAir (.startTime r.tag)).markWaiting r).records := State.markWaiting_mem hv hvr
    have hmine (w : CueRecord) (hw : w ∈ ((s.cancelAir (.startTime r.tag)).markWaiting r).records) (hwd : w.deck = some d) :
        w.tag = v.tag := by
      obtain ⟨x, hx, hxt, hxd⟩ := State.markWaiting_from hw
      rw [← hxt, halone x hx (hxd.trans hwd)]
    have hsounds := State.displaced_sounds (s := (s.cancelAir (.startTime r.tag)).markWaiting r) (r := r) (htags ▸ hn) hmem hvr hs hg hvd hlen
      (by rw [hdeck]; exact hplay) (by rw [hdeck]; exact hin) (by rw [hdeck]; exact hbound) hmine
      (fun i hi => honly i (by rw [← hdeck]; exact hi))
    exact ⟨hsounds.state, hsounds.fadeOut, hsounds.request⟩
  · intro ⟨_, hn⟩ hroom v hv hvun hg hsilent
    refine State.overtaken_logged (htags ▸ hn) ?_ (State.markWaiting_before hv) hvun hg fun i hi => ?_
    · rw [hlog, hrecords, List.length_map]
      exact hroom
    · rw [hdeck] at hi ⊢
      exact hsilent i hi

end Sys2Proof.Machine
end


section
/-! The plan of a fit: whom it drops, keeps and follows, each once. -/

namespace Sys2Proof.Machine

variable {s t u : State} {d : DeckNo} {e : EntryNo} {b : BreakEntry}

/-! ### The candidates, one after another (R131, R132) -/

/-- What a plan has decided since an earlier one: drops and truncation ends of candidates, each at most once, and the last one kept as the
prior. -/
structure FitPlan.Extends (plan init : FitPlan) (l : List Nat) : Prop where
  decided : ∃ (drops : List Nat) (truncs : List (Nat × Option Nat)) (m : List Nat), plan.drops = init.drops ++ drops
    ∧ plan.truncs = init.truncs ++ truncs ∧ m.Sublist l ∧ (drops ++ truncs.map Prod.fst).Perm m
    ∧ (plan.prior = init.prior ∨ ∃ q, plan.prior = some q ∧ q.tag ∈ truncs.map Prod.fst)

theorem State.foldl_fitCandidate_extends (s : State) (b : BreakEntry) (l : List CueRecord) (init : FitPlan) :
    (l.foldl (s.fitCandidate b) init).Extends init (l.map (·.tag)) := by
  induction l generalizing init with
  | nil => exact ⟨[], [], [], by simp⟩
  | cons r l ih =>
    obtain ⟨drops, truncs, m, hdrops, htruncs, hsub, hperm, hprior⟩ := ih (s.fitCandidate b init r)
    rw [List.foldl_cons, List.map_cons]
    obtain hc | hc | ⟨n, x, y, hc⟩ := s.fitCandidate_cases b init r <;> rw [hc] at hdrops htruncs hprior ⊢
    · exact ⟨drops, truncs, m, hdrops, htruncs, hsub.cons _, hperm, hprior⟩
    · refine ⟨r.tag :: drops, truncs, r.tag :: m, ?_, htruncs, hsub.cons_cons _, hperm.cons _, hprior⟩
      rw [hdrops, FitPlan.dropping, List.append_assoc]
      rfl
    · refine ⟨drops, (r.tag, n) :: truncs, r.tag :: m, hdrops, ?_, hsub.cons_cons _, ?_, .inr ?_⟩
      · rw [htruncs, FitPlan.keeping, List.append_assoc]
        rfl
      · rw [List.map_cons]
        exact List.perm_middle.trans (hperm.cons _)
      · obtain h | ⟨q, hq, hmem⟩ := hprior
        · exact ⟨⟨r.tag, x, y⟩, h, List.mem_cons_self ..⟩
        · exact ⟨q, hq, List.mem_cons_of_mem _ hmem⟩

/-! ### The anchor (R130) -/

theorem foldl_picks {α : Type} {f : Option α → α → Option α} (hf : ∀ best a, f best a = best ∨ f best a = some a) {l : List α}
    {init : Option α} {a : α} (h : l.foldl f init = some a) : init = some a ∨ a ∈ l := by
  induction l generalizing init with
  | nil => exact .inl h
  | cons x l ih =>
    obtain h | h := ih h
    · obtain hx | hx := hf init x
      · exact .inl (hx ▸ h)
      · exact .inr (Option.some.inj (hx.symm.trans h) ▸ List.mem_cons_self ..)
    · exact .inr (List.mem_cons_of_mem _ h)

theorem State.anchor_mem {a : CueRecord} (h : s.anchor b = some a) : a ∈ s.records ∧ a.sounding = true := by
  unfold State.anchor at h
  refine (foldl_picks (fun best r => ?_) h).elim nofun fun h => ?_
  · cases best with
    | none => exact .inr rfl
    | some x =>
      dsimp only
      split
      · exact .inr rfl
      · exact .inl rfl
  · obtain ⟨hmem, hp⟩ := List.mem_filter.mp h
    exact ⟨hmem, (Bool.and_eq_true _ _ ▸ hp).1⟩

/-! ### The whole plan (R130 to R132) -/

/-- Unstarted and sounding records have different tags. -/
theorem unstarted_tag_ne_sounding {l : List CueRecord} (hn : (l.map (·.tag)).Nodup) {r v : CueRecord} (hr : r ∈ l) (hv : v ∈ l)
    (hun : r.unstarted = true) (hs : v.sounding = true) : r.tag ≠ v.tag := fun h => by
  have heq := eq_of_tag hn hr hv h.symm
  rw [← heq, CueRecord.sounding_not_unstarted hs] at hun
  cases hun

/-- Before and behind a record there are different tags. -/
theorem before_tag_ne_behind {l : List CueRecord} (hn : (l.map (·.tag)).Nodup) {p : CueRecord → Bool} {r v : CueRecord}
    (hr : r ∈ l.takeWhile p) (hv : v ∈ (l.dropWhile p).drop 1) : r.tag ≠ v.tag := by
  rw [← List.takeWhile_append_dropWhile (p := p) (l := l), List.map_append, List.nodup_append] at hn
  obtain ⟨-, -, hdisj⟩ := hn
  exact hdisj _ (List.mem_map_of_mem hr) _ (List.mem_map_of_mem (List.mem_of_mem_drop hv))

/-- The sounding members that a fit gives a truncation end. -/
def State.soundingTruncs (s : State) (b : BreakEntry) : List (Nat × Option Nat) :=
  (((s.members b).filter (·.sounding)).filter fun r => !r.isAdvert).map fun r => (r.tag, soundingTrunc b r s.now)

/-- The unstarted members before and behind a record. -/
def State.passed (s : State) (b : BreakEntry) (tag : Nat) : List CueRecord :=
  (s.records.takeWhile fun r => r.tag != tag).filter fun r => b.isMember r && r.unstarted

def State.candidates (s : State) (b : BreakEntry) (tag : Nat) : List CueRecord :=
  ((s.records.dropWhile fun r => r.tag != tag).drop 1).filter fun r => b.isMember r && r.unstarted

theorem State.planFit_anchored {a : CueRecord} (h : s.anchor b = some a) : s.planFit b = (s.candidates b a.tag).foldl (s.fitCandidate b)
    { drops := (s.passed b a.tag).map (·.tag), truncs := s.soundingTruncs b, prior := some (s.anchorPrior b a) } := by
  simp only [State.planFit, h]
  rfl

theorem State.planFit_alone (h : s.anchor b = none) : s.planFit b = ((s.members b).filter (·.unstarted)).foldl (s.fitCandidate b)
    { truncs := s.soundingTruncs b } := by
  simp only [State.planFit, h]
  rfl

theorem State.mem_passed {tag : Nat} {r : CueRecord} (h : r ∈ s.passed b tag) :
    r ∈ s.records ∧ b.isMember r = true ∧ r.unstarted = true := by
  obtain ⟨hr, hm⟩ := List.mem_filter.mp h
  obtain ⟨hm, hun⟩ := Bool.and_eq_true _ _ ▸ hm
  exact ⟨(List.takeWhile_sublist _).subset hr, hm, hun⟩

theorem State.mem_candidates {tag : Nat} {r : CueRecord} (h : r ∈ s.candidates b tag) :
    r ∈ s.records ∧ b.isMember r = true ∧ r.unstarted = true := by
  obtain ⟨hr, hm⟩ := List.mem_filter.mp h
  obtain ⟨hm, hun⟩ := Bool.and_eq_true _ _ ▸ hm
  exact ⟨(List.dropWhile_sublist _).subset (List.mem_of_mem_drop hr), hm, hun⟩

theorem State.mem_soundingTruncs {x : Nat × Option Nat} (h : x ∈ s.soundingTruncs b) :
    ∃ r ∈ s.records, r.tag = x.1 ∧ b.isMember r = true ∧ r.sounding = true := by
  obtain ⟨r, hr, rfl⟩ := List.mem_map.mp h
  obtain ⟨hr, hs⟩ := List.mem_filter.mp (List.mem_of_mem_filter hr)
  obtain ⟨hr, hm⟩ := List.mem_filter.mp hr
  exact ⟨r, hr, rfl, hm, hs⟩

theorem State.nodup_soundingTruncs (hn : s.tags.Nodup) (b : BreakEntry) : ((s.soundingTruncs b).map Prod.fst).Nodup := by
  unfold State.soundingTruncs
  rw [List.map_map]
  exact hn.sublist ((List.filter_sublist.trans (List.filter_sublist.trans List.filter_sublist)).map _)

/-- What a plan holds: each tag decided once, every truncation end that of a member, and a prior that is not dropped. -/
structure FitPlan.Sound (plan : FitPlan) (s : State) (b : BreakEntry) : Prop where
  once : (plan.drops ++ plan.truncs.map Prod.fst).Nodup
  member : ∀ x ∈ plan.truncs, ∃ r ∈ s.records, r.tag = x.1 ∧ b.isMember r = true
  prior : ∀ q, plan.prior = some q → ∃ r ∈ s.records, r.tag = q.tag ∧ (r.sounding = true ∨ b.isMember r = true)

/-- Candidates that are unstarted members, apart from those decided before, extend a plan soundly. -/
theorem FitPlan.Sound.extend {plan init : FitPlan} {l : List CueRecord} (h : init.Sound s b)
    (hx : plan.Extends init (l.map (·.tag))) (hl : (l.map (·.tag)).Nodup)
    (hmem : ∀ r ∈ l, r ∈ s.records ∧ b.isMember r = true)
    (hnew : ∀ r ∈ l, r.tag ∉ init.drops ++ init.truncs.map Prod.fst) : plan.Sound s b := by
  obtain ⟨drops, truncs, m, hdrops, htruncs, hsub, hperm, hprior⟩ := hx
  have hfrom {tag : Nat} (ht : tag ∈ drops ++ truncs.map Prod.fst) : ∃ r ∈ l, r.tag = tag :=
    List.mem_map.mp (hsub.subset (hperm.mem_iff.mp ht))
  refine ⟨?_, fun x hxm => ?_, fun q hq => ?_⟩
  · have hall : (plan.drops ++ plan.truncs.map Prod.fst).Perm
        ((init.drops ++ init.truncs.map Prod.fst) ++ (drops ++ truncs.map Prod.fst)) := by
      rw [hdrops, htruncs, List.map_append, List.append_assoc, List.append_assoc]
      refine (List.Perm.append_left _ ?_)
      rw [← List.append_assoc, ← List.append_assoc]
      exact List.perm_append_comm.append_right _
    refine hall.nodup_iff.mpr (List.nodup_append.mpr ⟨h.once, hperm.nodup_iff.mpr (hl.sublist hsub), fun x hxi y hyn heq => ?_⟩)
    obtain ⟨r, hr, hrt⟩ := hfrom hyn
    exact hnew r hr (hrt.symm ▸ heq ▸ hxi)
  · rw [htruncs] at hxm
    obtain hxm | hxm := List.mem_append.mp hxm
    · exact h.member x hxm
    · obtain ⟨r, hr, hrt⟩ := hfrom (List.mem_append_right _ (List.mem_map_of_mem hxm))
      exact ⟨r, (hmem r hr).1, hrt, (hmem r hr).2⟩
  · obtain hp | ⟨q', hp, hmemq⟩ := hprior
    · exact h.prior q (hp ▸ hq)
    · have hqq : q' = q := Option.some.inj (hp.symm.trans hq)
      obtain ⟨r, hr, hrt⟩ := hfrom (List.mem_append_right _ hmemq)
      exact ⟨r, (hmem r hr).1, hqq ▸ hrt, .inr (hmem r hr).2⟩

theorem State.planFit_sound (hn : s.tags.Nodup) (b : BreakEntry) : (s.planFit b).Sound s b := by
  have hmember (x : Nat × Option Nat) (hx : x ∈ s.soundingTruncs b) : ∃ r ∈ s.records, r.tag = x.1 ∧ b.isMember r = true := by
    obtain ⟨r, hr, hrt, hm, -⟩ := State.mem_soundingTruncs hx
    exact ⟨r, hr, hrt, hm⟩
  have hsounding {r : CueRecord} (hr : r ∈ s.records) (hun : r.unstarted = true) : r.tag ∉ (s.soundingTruncs b).map Prod.fst := by
    intro hm
    obtain ⟨x, hx, hxt⟩ := List.mem_map.mp hm
    obtain ⟨v, hv, hvt, -, hs⟩ := State.mem_soundingTruncs hx
    exact unstarted_tag_ne_sounding hn hr hv hun hs (hxt.symm.trans hvt.symm)
  cases ha : s.anchor b with
  | none =>
    rw [State.planFit_alone ha]
    refine FitPlan.Sound.extend ?_ (s.foldl_fitCandidate_extends b _ _) ?_ (fun r hr => ?_) fun r hr => ?_
    · exact ⟨s.nodup_soundingTruncs hn b, hmember, nofun⟩
    · exact hn.sublist ((List.filter_sublist.trans List.filter_sublist).map _)
    · exact List.mem_filter.mp (List.mem_of_mem_filter hr)
    · obtain ⟨hr, hun⟩ := List.mem_filter.mp hr
      exact hsounding (List.mem_of_mem_filter hr) hun
  | some a =>
    obtain ⟨hamem, hasound⟩ := State.anchor_mem ha
    rw [State.planFit_anchored ha]
    refine FitPlan.Sound.extend ?_ (s.foldl_fitCandidate_extends b _ _) ?_ (fun r hr => ?_) fun r hr => ?_
    · refine ⟨List.nodup_append.mpr ⟨?_, s.nodup_soundingTruncs hn b, fun x hx y hy heq => ?_⟩, hmember, fun q hq => ?_⟩
      · exact hn.sublist ((List.filter_sublist.trans (List.takeWhile_sublist _)).map _)
      · obtain ⟨r, hr, rfl⟩ := List.mem_map.mp hx
        obtain ⟨hr, -, hun⟩ := State.mem_passed hr
        exact hsounding hr hun (heq ▸ hy)
      · obtain rfl := Option.some.inj hq
        exact ⟨a, hamem, rfl, .inl hasound⟩
    · exact hn.sublist ((List.filter_sublist.trans ((List.drop_sublist _ _).trans (List.dropWhile_sublist _))).map _)
    · obtain ⟨hr, hm, -⟩ := State.mem_candidates hr
      exact ⟨hr, hm⟩
    · obtain ⟨hmem, -, hun⟩ := State.mem_candidates hr
      intro hd
      obtain hd | hd := List.mem_append.mp hd
      · obtain ⟨v, hv, hvt⟩ := List.mem_map.mp hd
        exact before_tag_ne_behind hn (List.mem_of_mem_filter hv) (List.mem_of_mem_filter hr) hvt
      · exact hsounding hmem hun hd

/-- A prior is not among the plan's drops. -/
theorem FitPlan.Extends.prior_kept {plan init : FitPlan} {l : List Nat} (hx : plan.Extends init l) {q : Prior} (hq : plan.prior = some q) :
    init.prior = some q ∨ q.tag ∈ plan.truncs.map Prod.fst := by
  obtain ⟨drops, truncs, m, -, htruncs, -, -, hp | ⟨q', hp, hm⟩⟩ := hx
  · exact .inl (hp.symm.trans hq)
  · obtain rfl := Option.some.inj (hp.symm.trans hq)
    rw [htruncs, List.map_append]
    exact .inr (List.mem_append_right _ hm)

theorem State.planFit_prior (hn : s.tags.Nodup) {q : Prior} (hq : (s.planFit b).prior = some q) : q.tag ∉ (s.planFit b).drops := by
  have honce := (State.planFit_sound hn b).once
  have hkept (h : q.tag ∈ (s.planFit b).truncs.map Prod.fst) : q.tag ∉ (s.planFit b).drops := fun hd =>
    (List.nodup_append.mp honce).2.2 _ hd _ h rfl
  cases ha : s.anchor b with
  | none =>
    have hx := s.foldl_fitCandidate_extends b ((s.members b).filter (·.unstarted)) { truncs := s.soundingTruncs b }
    rw [← State.planFit_alone ha] at hx
    obtain h | h := hx.prior_kept hq
    · cases h
    · exact hkept h
  | some a =>
    have hx := s.foldl_fitCandidate_extends b (s.candidates b a.tag)
      { drops := (s.passed b a.tag).map (·.tag), truncs := s.soundingTruncs b, prior := some (s.anchorPrior b a) }
    rw [← State.planFit_anchored ha] at hx
    obtain h | h := hx.prior_kept hq
    · obtain rfl := Option.some.inj h
      obtain ⟨hamem, hasound⟩ := State.anchor_mem ha
      intro hd
      obtain ⟨r, hr, hrt, hun, -⟩ := State.mem_planFit_drops _ hd
      exact unstarted_tag_ne_sounding hn hr hamem hun hasound hrt
    · exact hkept h

/-! ### The fill's decision (R133) -/

/-- A fill is placed behind a prior, where none stands or the one that does is dropped. -/
theorem State.planFill_place {prior : Option Prior} {projected : Nat} (h : (s.planFill b prior projected).place = true) :
    prior.isSome = true ∧ (s.fillRecord b = none ∨ (s.planFill b prior projected).drop = some (fillTag b.id)) := by
  have hfresh (st : FillStatus) : (if st = .unplaced ∧ b.fillState = .ready ∧ 0 < room b.rejoin projected ∧ prior.isSome = true
      then (⟨none, true, decide (b.fillElen < room b.rejoin projected)⟩ : FillPlan)
      else ⟨none, false, decide (0 < room b.rejoin projected)⟩).place = true → prior.isSome = true := by
    split
    · rename_i hc
      exact fun _ => hc.2.2.2
    · exact nofun
  cases hf : s.fillRecord b with
  | none =>
    simp only [State.planFill, hf] at h ⊢
    exact ⟨hfresh _ h, .inl trivial⟩
  | some r =>
    obtain ⟨-, hrt⟩ := State.fillRecord_mem hf
    simp only [State.planFill, hf] at h ⊢
    split at h
    · cases h
    · rename_i hs
      split at h
      · cases h
      · rename_i hc
        refine ⟨hfresh .unplaced (by simpa using h), .inr ?_⟩
        rw [if_neg hs, if_neg hc, hrt]

/-- With no fill in the order one is placed exactly when it is UNPLACED and READY, with room behind a prior. -/
theorem State.planFill_fresh {prior : Option Prior} {projected : Nat} (hf : s.fillRecord b = none) :
    s.planFill b prior projected = if b.fillStatus = .unplaced ∧ b.fillState = .ready ∧ 0 < room b.rejoin projected ∧ prior.isSome = true
      then ⟨none, true, decide (b.fillElen < room b.rejoin projected)⟩ else ⟨none, false, decide (0 < room b.rejoin projected)⟩ := by
  simp only [State.planFill, hf]

end Sys2Proof.Machine
end


section
/-! A fit carried out: who has left, what the log, the truncation ends, the entry and the fill are afterwards. -/

namespace Sys2Proof.Machine

variable {s t u : State} {d : DeckNo} {e : EntryNo} {b : BreakEntry} {gone : List Nat}

/-! ### Truncation ends (R134) -/

/-- A record with a truncation end set. -/
def CueRecord.cutAt (x : Nat × Option Nat) (r : CueRecord) : CueRecord := if r.tag = x.1 then { r with truncEnd := x.2 } else r

theorem CueRecord.cutAt_tag (x : Nat × Option Nat) (r : CueRecord) : (r.cutAt x).tag = r.tag := by
  unfold CueRecord.cutAt
  split <;> rfl

theorem State.applyTruncation_records (s : State) (d : DeckNo) : (s.applyTruncation d).records = s.records := by
  unfold State.applyTruncation
  dsimp only
  split
  · split <;> rfl
  · rfl

theorem State.applyTruncation_breaks (s : State) (d : DeckNo) : (s.applyTruncation d).breaks = s.breaks := by
  unfold State.applyTruncation
  dsimp only
  split
  · split <;> rfl
  · rfl

/-- With distinct tags a truncation end is set on the record of its tag, and on no other. -/
theorem State.setTruncation_records (hn : s.tags.Nodup) (x : Nat × Option Nat) :
    (s.setTruncation x).records = s.records.map (CueRecord.cutAt x) := by
  have hsame (h : ∀ r ∈ s.records, r.cutAt x = r) : s.records = s.records.map (CueRecord.cutAt x) :=
    (List.map_id' s.records).symm.trans (List.map_congr_left fun r hr => (h r hr).symm)
  unfold State.setTruncation
  split
  · rename_i hf
    exact hsame fun r hr => if_neg fun ht => (s.find_none_iff x.1).mp hf (State.mem_tags.mpr ⟨r, hr, ht⟩)
  · rename_i r hf
    split
    · rename_i heq
      refine hsame fun v hv => ?_
      unfold CueRecord.cutAt
      split
      · rename_i hvt
        obtain rfl := eq_of_tag hn (State.find_mem hf) hv (hvt.trans (State.find_tag hf).symm)
        rw [← heq]
      · rfl
    · dsimp only
      split
      · split
        · rfl
        · exact State.applyTruncation_records _ _
      · rfl

theorem State.setTruncation_breaks (s : State) (x : Nat × Option Nat) : (s.setTruncation x).breaks = s.breaks := by
  unfold State.setTruncation
  split
  · rfl
  · split
    · rfl
    · dsimp only
      split
      · split
        · rfl
        · exact State.applyTruncation_breaks _ _
      · rfl

theorem State.setTruncation_tags (hn : s.tags.Nodup) (x : Nat × Option Nat) : (s.setTruncation x).tags = s.tags :=
  State.tags_map (State.setTruncation_records hn x) (CueRecord.cutAt_tag x)

theorem State.setTruncations_breaks (l : List (Nat × Option Nat)) (s : State) : (l.foldl State.setTruncation s).breaks = s.breaks := by
  induction l generalizing s with
  | nil => rfl
  | cons x l ih => exact (ih _).trans (s.setTruncation_breaks x)

theorem State.setTruncations_tags (l : List (Nat × Option Nat)) (s : State) (hn : s.tags.Nodup) :
    (l.foldl State.setTruncation s).tags = s.tags := by
  induction l generalizing s with
  | nil => rfl
  | cons x l ih => exact (ih _ (by rwa [State.setTruncation_tags hn])).trans (State.setTruncation_tags hn x)

/-- Truncation ends for different tags all stand on their records. -/
theorem State.setTruncations_set (l : List (Nat × Option Nat)) (s : State) (hn : s.tags.Nodup) (hl : (l.map Prod.fst).Nodup) :
    ∀ x ∈ l, ∀ r ∈ (l.foldl State.setTruncation s).records, r.tag = x.1 → r.truncEnd = x.2 := by
  have hother (l : List (Nat × Option Nat)) (x : Nat × Option Nat) : ∀ (s : State), s.tags.Nodup → x.1 ∉ l.map Prod.fst →
      (∀ r ∈ s.records, r.tag = x.1 → r.truncEnd = x.2) →
      ∀ r ∈ (l.foldl State.setTruncation s).records, r.tag = x.1 → r.truncEnd = x.2 := by
    induction l with
    | nil => exact fun _ _ _ h => h
    | cons y l ih =>
      intro s hn hx h
      rw [List.map_cons, List.mem_cons, not_or] at hx
      refine ih _ (by rwa [State.setTruncation_tags hn]) hx.2 fun r hr hrt => ?_
      rw [State.setTruncation_records hn] at hr
      obtain ⟨v, hv, rfl⟩ := List.mem_map.mp hr
      rw [CueRecord.cutAt_tag] at hrt
      rw [CueRecord.cutAt, if_neg fun hy => hx.1 (hrt.symm.trans hy)]
      exact h v hv hrt
  induction l generalizing s with
  | nil => exact nofun
  | cons y l ih =>
    rw [List.map_cons, List.nodup_cons] at hl
    have hn' : (s.setTruncation y).tags.Nodup := by rwa [State.setTruncation_tags hn]
    intro x hx
    obtain rfl | hx := List.mem_cons.mp hx
    · refine hother l x _ hn' hl.1 fun r hr hrt => ?_
      rw [State.setTruncation_records hn] at hr
      obtain ⟨v, hv, rfl⟩ := List.mem_map.mp hr
      rw [CueRecord.cutAt_tag] at hrt
      rw [CueRecord.cutAt, if_pos hrt]
    · exact ih _ hn' hl.2 x hx

/-! ### The entry through a fit -/

theorem State.fitView_nil (s : State) (e : EntryNo) : s.fitView e [] = s.judgeFillFade e := by
  have h : ((s.judgeFillFade e).records.filter fun r => !([] : List Nat).contains r.tag) = (s.judgeFillFade e).records :=
    List.filter_eq_self.mpr fun _ _ => rfl
  unfold State.fitView
  rw [h]

theorem State.judgeFillFade_entry (s : State) (e : EntryNo) : ∃ f, (s.judgeFillFade e).entry e = { s.entry e with fillFade := f } := by
  obtain ⟨f, l, ts, h⟩ := s.judgeFillFade_eq e
  refine ⟨f, ?_⟩
  rw [h]
  exact s.entry_setEntry_self e _

/-- The entry with the decisions of a fit noted. -/
def State.fitEntry (s : State) (e : EntryNo) (gone : List Nat) : BreakEntry :=
  { s.entry e with
    projected := some ((s.fitPlan e gone).projected (s.judgeFillFade e).now), short := (s.fitFill e gone).short
    overrunDrops := (s.entry e).overrunDrops || !(s.fitPlan e gone).drops.isEmpty }

theorem State.fitNoted_entry (s : State) (e : EntryNo) (gone : List Nat) :
    ∃ f, (s.fitNoted e gone).entry e = { s.fitEntry e gone with fillFade := f } := by
  obtain ⟨f, hf⟩ := s.judgeFillFade_entry e
  refine ⟨f, ?_⟩
  unfold State.fitNoted State.modEntry
  rw [State.entry_setEntry_self, hf]
  rfl

theorem State.fitCut_entry (s : State) (e : EntryNo) (gone : List Nat) : ((s.fitCut e gone).entry e).core = (s.fitEntry e gone).core := by
  obtain ⟨f, hf⟩ := s.fitNoted_entry e gone
  have hcut : (s.fitCut e gone).entry e = (s.fitLeft e gone).entry e := State.entry_congr (State.setTruncations_breaks _ _) e
  have hleft : ((s.fitLeft e gone).entry e).core = ((s.fitNoted e gone).entry e).core := State.leaveAll_entries _ _ _ _ _ e
  rw [hcut, hleft, hf]
  rfl

/-- Records that leave and are no fill leave the break entries alone. -/
theorem State.leaveAll_breaks (c : Cause) (byFit : Bool) (gone l : List Nat) (s : State)
    (h : ∀ r ∈ s.records, r.tag ∈ l → ∀ id, r.breakId = some id → r.tag ≠ fillTag id) :
    (s.leaveAll c byFit tellNoFit gone l).breaks = s.breaks := by
  induction l generalizing s with
  | nil => rfl
  | cons tag rest ih =>
    rw [State.leaveAll]
    cases hf : s.find tag with
    | none =>
      rw [State.leaveOne_absent hf]
      exact ih s fun r hr ht => h r hr (List.mem_cons_of_mem _ ht)
    | some r =>
      obtain ⟨-, hbreaks, -⟩ := (State.leaveOne_noFit hf c byFit (rest ++ gone)).rests
      have hremoved := State.removeRecord_removed hf c byFit
      obtain ⟨f, hrecords, hfs⟩ := s.leaveOne_records c byFit tag (rest ++ gone)
      refine (ih _ fun v hv hvt id hid => ?_).trans (hbreaks.trans (hremoved.statuses fun id hid =>
        h r (State.find_mem hf) ((State.find_tag hf).symm ▸ List.mem_cons_self ..) id hid))
      rw [hrecords] at hv
      obtain ⟨w, hw, rfl⟩ := List.mem_map.mp hv
      obtain ⟨hcore, -⟩ := hfs w
      have htag : (f w).tag = w.tag := (congrArg CueRecord.tag hcore :)
      have hbid : (f w).breakId = w.breakId := (congrArg CueRecord.breakId hcore :)
      rw [htag] at hvt ⊢
      exact h w (List.mem_of_mem_filter hw) (List.mem_cons_of_mem _ hvt) id (hbid ▸ hid)

/-- A placed fill changes the fill status and SHORT of its entry at most. -/
theorem State.placeFill_entry (s : State) (e : EntryNo) (after : Nat) (gone : List Nat) : ∃ st sh,
    (s.placeFill e after gone).entry e = { s.entry e with fillStatus := st, short := sh } := by
  cases h : (s.entry e).fillSnapshot with
  | none =>
    rw [State.placeFill_none h]
    exact ⟨(s.entry e).fillStatus, (s.entry e).short, rfl⟩
  | some sn =>
    by_cases hroom : 48 ≤ s.records.length ∨ fillTag (s.entry e).id ∈ s.tags
    · rw [State.placeFill_refused h hroom]
      exact ⟨(s.entry e).fillStatus, true, s.entry_setEntry_self e _⟩
    · obtain ⟨hlt, hnew⟩ := not_or.mp hroom
      obtain ⟨-, hbreaks, -⟩ := (State.shift_fillJoined (sn := sn) hnew after gone).rests
      rw [State.placeFill_joins h (Nat.not_le.mp hlt) hnew, State.entry_congr hbreaks]
      exact ⟨.placed, (s.entry e).short, State.entry_setEntry_self _ _ _⟩

/-! ### The records through a fit -/

theorem State.fitCut_tags (hn : s.tags.Nodup) (e : EntryNo) (gone : List Nat) :
    (s.fitCut e gone).tags = s.tags.filter fun tag => !(s.fitDrops e gone).contains tag := by
  have hnd : (s.fitLeft e gone).tags.Nodup := (State.moves_fitLeft (fine := True) (fun _ => hn) e gone).nodup hn
  have htags : (s.fitNoted e gone).tags = s.tags := congrArg (List.map CueRecord.tag) (s.records_fitNoted e gone)
  rw [State.fitCut, State.setTruncations_tags _ _ hnd, State.fitLeft, State.leaveAll_tags, htags]

theorem State.mem_fitDrops_of {tag : Nat} (h : tag ∈ s.tags)
    (hd : tag ∈ (s.fitPlan e gone).drops ∨ (s.fitFill e gone).drop = some tag) : tag ∈ s.fitDrops e gone := by
  refine List.mem_filter.mpr ⟨?_, ?_⟩
  · rw [State.records_fitNoted]
    exact h
  · rw [List.contains_iff_mem, List.mem_append, Option.mem_toList]
    exact hd

/-- What a fit's plan drops stands in the order, as a member. -/
theorem State.mem_fitPlan_drops {tag : Nat} (h : tag ∈ (s.fitPlan e []).drops) :
    ∃ r ∈ s.records, r.tag = tag ∧ r.unstarted = true ∧ ((s.judgeFillFade e).entry e).isMember r = true := by
  unfold State.fitPlan at h
  rw [State.fitView_nil] at h
  obtain ⟨r, hr, hd⟩ := State.mem_planFit_drops tag h
  exact ⟨r, s.records_judgeFillFade e ▸ hr, hd⟩

theorem State.fitFill_drop {tag : Nat} (h : (s.fitFill e []).drop = some tag) :
    ∃ r ∈ s.records, r.tag = tag ∧ r.unstarted = true ∧ tag = fillTag (s.entry e).id := by
  unfold State.fitFill at h
  rw [State.fitView_nil] at h
  obtain ⟨r, hr, hrt, hun⟩ := State.planFill_drop h
  obtain ⟨hmem, hfill⟩ := State.fillRecord_mem hr
  obtain ⟨f, hf⟩ := s.judgeFillFade_entry e
  rw [hf] at hfill
  exact ⟨r, s.records_judgeFillFade e ▸ hmem, hrt, hun, hrt.symm.trans hfill⟩

theorem State.nodup_judgeFillFade (hn : s.tags.Nodup) (e : EntryNo) : (s.judgeFillFade e).tags.Nodup := by
  rw [State.tags, State.records_judgeFillFade]
  exact hn

/-- The plan of a fit is sound. -/
theorem State.fitPlan_sound (hn : s.tags.Nodup) (e : EntryNo) :
    (s.fitPlan e []).Sound (s.judgeFillFade e) ((s.judgeFillFade e).entry e) := by
  unfold State.fitPlan
  rw [State.fitView_nil]
  exact State.planFit_sound (State.nodup_judgeFillFade hn e) _

theorem BreakEntry.isMember_iff {r : CueRecord} : b.isMember r = true ↔ r.breakId = some b.id ∧ r.group = b.group ∧ r.tag ≠ fillTag b.id := by
  simp [BreakEntry.isMember, and_assoc]

/-- A truncation end that a fit decides is that of a member, and no fill's. -/
theorem State.fitPlan_truncs {x : Nat × Option Nat} (hn : s.tags.Nodup) (hx : x ∈ (s.fitPlan e []).truncs) :
    x.1 ≠ fillTag (s.entry e).id := by
  obtain ⟨r, -, hrt, hm⟩ := (State.fitPlan_sound hn e).member x hx
  obtain ⟨-, -, hne⟩ := BreakEntry.isMember_iff.mp hm
  obtain ⟨f, hf⟩ := s.judgeFillFade_entry e
  rw [hf, hrt] at hne
  exact hne

/-- The state after a fit's truncations, or after the fill is placed. -/
theorem State.fit_cases (h : (s.entry e).state = .running) :
    ((s.fitFill e []).place = false ∧ s.fit e = s.fitCut e [])
    ∨ ∃ q, (s.fitFill e []).place = true ∧ (s.fitPlan e []).prior = some q ∧ s.fit e = (s.fitCut e []).placeFill e q.tag [] := by
  cases hp : (s.fitFill e []).place with
  | false => exact .inl ⟨rfl, State.fitWithout_noPlace h (.inl hp)⟩
  | true =>
    have hprior : (s.fitPlan e []).prior.isSome = true := (State.planFill_place hp).1
    obtain ⟨q, hq⟩ := Option.isSome_iff_exists.mp hprior
    exact .inr ⟨q, rfl, hq, State.fitWithout_place h hp hq⟩

/-- What is gone or logged when a fit's departures are carried out stays so. -/
theorem State.after_fitLeft (h : (s.entry e).state = .running) : (s.fitLeft e []).After (s.fit e) := by
  have hcut : (s.fitLeft e []).After (s.fitCut e []) := State.After.foldl State.setTruncation (fun s x => s.after_setTruncation x) _ _
  obtain ⟨-, hfit⟩ | ⟨q, -, -, hfit⟩ := State.fit_cases h <;> rw [hfit]
  · exact hcut
  · exact .andThen (State.after_placeFill _ _ _) hcut

/-- The records after a fit: those after its truncations, marks and bindings apart, and perhaps the fill. -/
theorem State.fit_records (h : (s.entry e).state = .running) : ∀ r ∈ (s.fit e).records,
    r.tag = fillTag (s.entry e).id ∨ ∃ v ∈ (s.fitCut e []).records, r.core = v.core := by
  have hid : ((s.fitCut e []).entry e).id = (s.entry e).id := (congrArg BreakEntry.id (s.fitCut_entry e []) :)
  obtain ⟨-, hfit⟩ | ⟨q, -, -, hfit⟩ := State.fit_cases h <;> rw [hfit]
  · exact fun r hr => .inr ⟨r, hr, rfl⟩
  · generalize s.fitCut e [] = v at hid
    intro r hr
    cases hsn : (v.entry e).fillSnapshot with
    | none =>
      rw [State.placeFill_none hsn] at hr
      exact .inr ⟨r, hr, rfl⟩
    | some sn =>
      by_cases hroom : 48 ≤ v.records.length ∨ fillTag (v.entry e).id ∈ v.tags
      · rw [State.placeFill_refused hsn hroom] at hr
        exact .inr ⟨r, hr, rfl⟩
      · obtain ⟨hlt, hnew⟩ := not_or.mp hroom
        rw [State.placeFill_joins hsn (Nat.not_le.mp hlt) hnew] at hr
        obtain ⟨f, hf, hfs⟩ := (State.shift_fillJoined (sn := sn) hnew q.tag []).records
        rw [hf] at hr
        obtain ⟨w, hw, rfl⟩ := List.mem_map.mp hr
        obtain rfl | hw := mem_insertAfter.mp hw
        · exact .inl ((hfs _).tag.trans (congrArg fillTag hid))
        · exact .inr ⟨w, hw, (hfs w).1⟩

end Sys2Proof.Machine
end


section
/-! The obligation about fits, from the candidates to the fill that is placed. -/

namespace Sys2Proof.Machine

variable {s t u : State} {d : DeckNo} {e : EntryNo} {b : BreakEntry} {gone : List Nat}

/-! ### The fill behind its prior (R40) -/

theorem insertAfter_tags {after : Nat} {r : CueRecord} {l : List CueRecord} (h : after ∈ l.map (·.tag)) :
    ∃ before behind, (insertAfter after r l).map (·.tag) = before ++ after :: r.tag :: behind := by
  induction l with
  | nil => cases h
  | cons x l ih =>
    unfold insertAfter
    split
    · rename_i hx
      exact ⟨[], l.map (·.tag), by rw [List.map_cons, List.map_cons, hx]; rfl⟩
    · rename_i hx
      obtain h | h := List.mem_cons.mp h
      · exact absurd h.symm hx
      · obtain ⟨before, behind, hb⟩ := ih h
        exact ⟨x.tag :: before, behind, by rw [List.map_cons, hb]; rfl⟩

/-- A fill that joins stands unstarted directly behind the record named, with the fields of R40, and its entry is PLACED. -/
theorem State.placeFill_spec {sn : Snapshot} (h : (s.entry e).fillSnapshot = some sn) (hroom : s.records.length < 48)
    (hnew : fillTag (s.entry e).id ∉ s.tags) {after : Nat} (hafter : after ∈ s.tags) (gone : List Nat) :
    (s.placeFill e after gone).entry e = { s.entry e with fillStatus := .placed }
    ∧ (∃ before behind, (s.placeFill e after gone).tags = before ++ after :: fillTag (s.entry e).id :: behind)
    ∧ ∃ r ∈ (s.placeFill e after gone).records, r.unstarted = true ∧ r.core = fillRecordOf (s.entry e) sn := by
  have hshift := State.shift_fillJoined (sn := sn) hnew after gone
  obtain ⟨-, hbreaks, -⟩ := hshift.rests
  obtain ⟨f, hf, hfs⟩ := hshift.records
  rw [State.placeFill_joins h hroom hnew]
  refine ⟨?_, ?_, ?_⟩
  · rw [State.entry_congr hbreaks]
    exact State.entry_setEntry_self _ _ _
  · rw [hshift.tags]
    exact insertAfter_tags (r := fillRecordOf (s.entry e) sn) hafter
  · obtain ⟨hcore, -, hun⟩ := hfs (fillRecordOf (s.entry e) sn)
    refine ⟨f (fillRecordOf (s.entry e) sn), ?_, hun rfl, hcore⟩
    rw [hf]
    exact List.mem_map_of_mem (mem_insertAfter.mpr (.inl rfl))

/-- The prior of a fit's plan stands in the order, and is not dropped. -/
theorem State.fitPlan_prior (hn : s.tags.Nodup) {q : Prior} (hq : (s.fitPlan e []).prior = some q) : q.tag ∈ s.tags ∧ q.tag ∉ s.fitDrops e [] := by
  have hnv := State.nodup_judgeFillFade hn e
  obtain ⟨r, hr, hrt, hkind⟩ := (State.fitPlan_sound hn e).prior q hq
  have hmem : r ∈ s.records := s.records_judgeFillFade e ▸ hr
  refine ⟨State.mem_tags.mpr ⟨r, hmem, hrt⟩, fun hd => ?_⟩
  obtain ⟨-, hc⟩ := List.mem_filter.mp hd
  rw [List.contains_iff_mem, List.mem_append, Option.mem_toList] at hc
  obtain hc | hc := hc
  · have hnot : q.tag ∉ (s.fitPlan e []).drops := by
      unfold State.fitPlan at hq ⊢
      rw [State.fitView_nil] at hq ⊢
      exact State.planFit_prior hnv hq
    exact hnot hc
  · obtain ⟨v, hv, hvt, hun, hfill⟩ := State.fitFill_drop hc
    obtain hs | hm := hkind
    · exact unstarted_tag_ne_sounding hn hv hmem hun hs (hvt.trans hrt.symm)
    · obtain ⟨-, -, hne⟩ := BreakEntry.isMember_iff.mp hm
      obtain ⟨f, hf⟩ := s.judgeFillFade_entry e
      rw [hf] at hne
      exact hne (hrt.trans hfill)

/-- Where a fill is to be placed, none stands after the departures. -/
theorem State.fitCut_noFill (hn : s.tags.Nodup) (hplace : (s.fitFill e []).place = true) :
    fillTag (s.entry e).id ∉ (s.fitCut e []).tags := by
  obtain ⟨f, hf⟩ := s.judgeFillFade_entry e
  have hid : ((s.judgeFillFade e).entry e).id = (s.entry e).id := by rw [hf]
  rw [State.fitCut_tags hn, List.mem_filter]
  rintro ⟨hm, hc⟩
  have hnot : fillTag (s.entry e).id ∉ s.fitDrops e [] := by simpa using hc
  obtain ⟨-, hnone | hdrop⟩ := State.planFill_place (s := s.fitView e []) hplace
  · rw [State.fitView_nil, State.fillRecord, List.find?_eq_none] at hnone
    obtain ⟨r, hr, hrt⟩ := State.mem_tags.mp hm
    refine hnone r (s.records_judgeFillFade e ▸ hr) ?_
    simp [BreakEntry.isFill, hid, hrt]
  · rw [hid] at hdrop
    exact hnot (State.mem_fitDrops_of hm (.inr hdrop))

/-- A fit that drops something leaves room in the order. -/
theorem State.fitCut_room (hs : s.OrderOk)
    (h : s.records.length < 48 ∨ (s.fitPlan e []).drops ≠ [] ∨ (s.fitFill e []).drop ≠ none) :
    (s.fitCut e []).records.length < 48 := by
  obtain ⟨hlen, hn⟩ := hs
  have hcut : (s.fitCut e []).records.length = (s.tags.filter fun tag => !(s.fitDrops e []).contains tag).length := by
    rw [← State.fitCut_tags hn, State.tags, List.length_map]
  have hle : s.tags.length ≤ 48 := by
    rw [State.tags, List.length_map]
    exact hlen
  rw [hcut]
  have hless {tag : Nat} (hm : tag ∈ s.tags) (hd : tag ∈ s.fitDrops e []) :
      (s.tags.filter fun tag => !(s.fitDrops e []).contains tag).length < 48 :=
    (List.length_filter_lt_length_iff_exists.mpr ⟨tag, hm, by simp [hd]⟩).trans_le hle
  obtain h | h | h := h
  · refine (List.length_filter_le _ _).trans_lt ?_
    rw [State.tags, List.length_map]
    exact h
  · obtain ⟨tag, htag⟩ := List.exists_mem_of_ne_nil _ h
    obtain ⟨r, hr, hrt, -⟩ := State.mem_fitPlan_drops htag
    have hm : tag ∈ s.tags := State.mem_tags.mpr ⟨r, hr, hrt⟩
    exact hless hm (State.mem_fitDrops_of hm (.inl htag))
  · obtain ⟨tag, htag⟩ := Option.ne_none_iff_exists'.mp h
    obtain ⟨r, hr, hrt, -⟩ := State.fitFill_drop htag
    have hm : tag ∈ s.tags := State.mem_tags.mpr ⟨r, hr, hrt⟩
    exact hless hm (State.mem_fitDrops_of hm (.inr htag))

/-! ### What a fit of a RUNNING break leaves -/

/-- The entry keeps its state and rejoin time, and has the projected end and OVERRUN_DROPS decided. -/
theorem State.fit_entry (h : (s.entry e).state = .running) : ((s.fit e).entry e).projected = (s.fitEntry e []).projected
    ∧ ((s.fit e).entry e).overrunDrops = (s.fitEntry e []).overrunDrops ∧ ((s.fit e).entry e).state = .running
    ∧ ((s.fit e).entry e).rejoin = (s.entry e).rejoin := by
  have hcore := s.fitCut_entry e []
  have hfields : ((s.fitCut e []).entry e).projected = (s.fitEntry e []).projected
      ∧ ((s.fitCut e []).entry e).overrunDrops = (s.fitEntry e []).overrunDrops ∧ ((s.fitCut e []).entry e).state = .running
      ∧ ((s.fitCut e []).entry e).rejoin = (s.entry e).rejoin :=
    ⟨(congrArg BreakEntry.projected hcore :), (congrArg BreakEntry.overrunDrops hcore :),
      (congrArg BreakEntry.state hcore :).trans h, (congrArg BreakEntry.rejoin hcore :)⟩
  obtain ⟨-, hfit⟩ | ⟨q, -, -, hfit⟩ := State.fit_cases h <;> rw [hfit]
  · exact hfields
  · obtain ⟨st, sh, hentry⟩ := (s.fitCut e []).placeFill_entry e q.tag []
    rw [hentry]
    exact hfields

theorem State.fit_gone (h : (s.entry e).state = .running) {tag : Nat} (hd : tag ∈ (s.fitPlan e []).drops) (hlt : tag < 65280) :
    tag ∉ (s.fit e).tags := by
  obtain ⟨r, hr, hrt, -⟩ := State.mem_fitPlan_drops hd
  refine (State.after_fitLeft h).gone hlt ?_
  exact State.leaveAll_gone (State.mem_fitDrops_of (State.mem_tags.mpr ⟨r, hr, hrt⟩) (.inl hd)) _ _ _ _

/-- Every record that a fit drops has its entry, when the log has room for all of them. -/
theorem State.fit_logged (h : (s.entry e).state = .running) (hn : s.tags.Nodup)
    (hroom : s.log.records.length + s.records.length ≤ 32) {tag : Nat} (hd : tag ∈ (s.fitPlan e []).drops) :
    ∃ a ∈ (s.fit e).log.records, a.tag = tag ∧ a.outcome = .dropped ∧ a.reason = .noFit := by
  obtain ⟨r, hr, hrt, -⟩ := State.mem_fitPlan_drops hd
  have hm : tag ∈ s.tags := State.mem_tags.mpr ⟨r, hr, hrt⟩
  have htags : (s.fitNoted e []).tags = s.tags := congrArg (List.map CueRecord.tag) (s.records_fitNoted e [])
  have hcount := (State.moves_fitNoted (fine := True) s e [] []).count
  have hwaits (x : Nat) (hx : x ∈ s.fitDrops e []) : (s.fitNoted e []).Waits x := by
    obtain ⟨-, w, hw, hwt, hun⟩ := State.mem_fitDrops hx
    intro v hv hvt
    rw [State.records_fitNoted] at hv
    exact eq_of_tag hn hw hv (hvt.trans hwt.symm) ▸ hun
  obtain ⟨a, ha, hfields⟩ := State.leaveAll_logged tellNoFit_after movesWhenTold_noFit ⟨.dropped, .noFit⟩ true (tag := tag)
    (s.fitNoted e []) (htags ▸ hn) (State.nodup_fitDrops hn e []) hwaits (State.mem_fitDrops_of hm (.inl hd)) (htags ▸ hm)
    (by omega)
  exact ⟨a, (State.after_fitLeft h).appends.subset ha, hfields⟩

/-- The truncation ends that a fit decides are on their records. -/
theorem State.fit_truncEnds (h : (s.entry e).state = .running) (hn : s.tags.Nodup) :
    ∀ x ∈ (s.fitPlan e []).truncs, ∀ r ∈ (s.fit e).records, r.tag = x.1 → r.truncEnd = x.2 := by
  intro x hx r hr hrt
  have hnd : (s.fitLeft e []).tags.Nodup := (State.moves_fitLeft (fine := True) (fun _ => hn) e []).nodup hn
  have honce : ((s.fitPlan e []).truncs.map Prod.fst).Nodup := (List.nodup_append.mp (State.fitPlan_sound hn e).once).2.1
  obtain hfill | ⟨v, hv, hcore⟩ := State.fit_records h r hr
  · exact absurd (hrt.symm.trans hfill) (State.fitPlan_truncs hn hx)
  · have htag : r.tag = v.tag := (congrArg CueRecord.tag hcore :)
    have hend : r.truncEnd = v.truncEnd := (congrArg CueRecord.truncEnd hcore :)
    exact hend.trans (State.setTruncations_set _ _ hnd honce x hx v hv (htag.symm.trans hrt))

/-- A fit that drops no fill leaves the fill status to the fill it may place. -/
theorem State.fitCut_fillStatus (hn : s.tags.Nodup) (hnone : (s.fitFill e []).drop = none) :
    ((s.fitCut e []).entry e).fillStatus = (s.entry e).fillStatus := by
  obtain ⟨f, hf⟩ := s.fitNoted_entry e []
  obtain ⟨f', hf'⟩ := s.judgeFillFade_entry e
  have hbreaks : (s.fitLeft e []).breaks = (s.fitNoted e []).breaks := by
    refine State.leaveAll_breaks _ _ _ _ _ fun r hr hrt id hid => ?_
    rw [State.records_fitNoted] at hr
    obtain ⟨-, hc⟩ := List.mem_filter.mp hrt
    rw [List.contains_iff_mem, List.mem_append, Option.mem_toList, hnone] at hc
    obtain hc | hc := hc
    · obtain ⟨v, hv, hvt, -, hm⟩ := State.mem_fitPlan_drops hc
      obtain rfl := eq_of_tag hn hr hv hvt
      obtain ⟨hbid, -, hne⟩ := BreakEntry.isMember_iff.mp hm
      exact Option.some.inj (hbid.symm.trans hid) ▸ hne
    · cases hc
  have hcut : (s.fitCut e []).entry e = (s.fitLeft e []).entry e := State.entry_congr (State.setTruncations_breaks _ _) e
  rw [hcut, State.entry_congr hbreaks, hf]
  rfl

/-- Without a fill to place, SHORT and the fill status are as decided, and a fill to be dropped is gone. -/
theorem State.fit_noFill (h : (s.entry e).state = .running) (hn : s.tags.Nodup) (hplace : (s.fitFill e []).place = false) :
    ((s.fit e).entry e).short = (s.fitFill e []).short
    ∧ ((s.fitFill e []).drop = none → ((s.fit e).entry e).fillStatus = (s.entry e).fillStatus)
    ∧ ∀ tag, (s.fitFill e []).drop = some tag → tag ∉ (s.fit e).tags := by
  have hfit : s.fit e = s.fitCut e [] := State.fitWithout_noPlace h (.inl hplace)
  rw [hfit]
  refine ⟨(congrArg BreakEntry.short (s.fitCut_entry e []) :), State.fitCut_fillStatus hn, fun tag htag => ?_⟩
  obtain ⟨r, hr, hrt, -⟩ := State.fitFill_drop htag
  rw [State.fitCut_tags hn, List.mem_filter]
  rintro ⟨hm, hc⟩
  have hd := State.mem_fitDrops_of (gone := []) hm (.inr htag)
  simp [hd] at hc

/-- A fill to be placed stands behind its prior; SHORT is as decided. -/
theorem State.fit_places (h : (s.entry e).state = .running) (hs : s.OrderOk) {q : Prior} {sn : Snapshot}
    (hplace : (s.fitFill e []).place = true) (hq : (s.fitPlan e []).prior = some q) (hsn : (s.entry e).fillSnapshot = some sn)
    (hroom : s.records.length < 48 ∨ (s.fitPlan e []).drops ≠ [] ∨ (s.fitFill e []).drop ≠ none) :
    ((s.fit e).entry e).fillStatus = .placed ∧ ((s.fit e).entry e).short = (s.fitFill e []).short
    ∧ (∃ before behind, (s.fit e).tags = before ++ q.tag :: fillTag (s.entry e).id :: behind)
    ∧ ∃ r ∈ (s.fit e).records, r.unstarted = true ∧ r.core = fillRecordOf (s.entry e) sn := by
  have hcore := s.fitCut_entry e []
  have hid : ((s.fitCut e []).entry e).id = (s.entry e).id := (congrArg BreakEntry.id hcore :)
  have hgroup : ((s.fitCut e []).entry e).group = (s.entry e).group := (congrArg BreakEntry.group hcore :)
  have hcart : ((s.fitCut e []).entry e).fillCart = (s.entry e).fillCart := (congrArg BreakEntry.fillCart hcore :)
  have hshort : ((s.fitCut e []).entry e).short = (s.fitFill e []).short := (congrArg BreakEntry.short hcore :)
  have hsnap : ((s.fitCut e []).entry e).fillSnapshot = some sn := (congrArg BreakEntry.fillSnapshot hcore :).trans hsn
  have hnew := State.fitCut_noFill hs.2 hplace
  obtain ⟨hmem, hkept⟩ := State.fitPlan_prior hs.2 hq
  have hafter : q.tag ∈ (s.fitCut e []).tags := by
    rw [State.fitCut_tags hs.2]
    exact List.mem_filter.mpr ⟨hmem, by simpa using hkept⟩
  have hfill : fillRecordOf ((s.fitCut e []).entry e) sn = fillRecordOf (s.entry e) sn := by
    simp only [fillRecordOf, hid, hgroup, hcart]
  obtain ⟨hentry, htags, hrecord⟩ := State.placeFill_spec hsnap (State.fitCut_room hs hroom) (hid ▸ hnew) hafter []
  have hfit : s.fit e = (s.fitCut e []).placeFill e q.tag [] := State.fitWithout_place h hplace hq
  rw [hid] at htags
  rw [hfill] at hrecord
  rw [hfit, hentry]
  exact ⟨rfl, hshort, htags, hrecord⟩

/-- A full list refuses the fill. -/
theorem State.fit_refuses (h : (s.entry e).state = .running) (hn : s.tags.Nodup) {q : Prior} {sn : Snapshot}
    (hplace : (s.fitFill e []).place = true) (hq : (s.fitPlan e []).prior = some q) (hsn : (s.entry e).fillSnapshot = some sn)
    (hfull : 48 ≤ s.records.length) (hdrops : (s.fitPlan e []).drops = []) (hdrop : (s.fitFill e []).drop = none) :
    ((s.fit e).entry e).short = true ∧ ((s.fit e).entry e).fillStatus = (s.entry e).fillStatus ∧ (s.fit e).tags = s.tags := by
  have hnone : s.fitDrops e [] = [] := by
    rw [State.fitDrops, hdrops, hdrop]
    exact List.filter_eq_nil_iff.mpr fun _ _ => by simp
  have htags : (s.fitCut e []).tags = s.tags := by
    rw [State.fitCut_tags hn, hnone]
    exact List.filter_eq_self.mpr fun _ _ => rfl
  have hlen : 48 ≤ (s.fitCut e []).records.length := by
    have hl := congrArg List.length htags
    rw [State.tags, List.length_map, State.tags, List.length_map] at hl
    omega
  have hsnap : ((s.fitCut e []).entry e).fillSnapshot = some sn := (congrArg BreakEntry.fillSnapshot (s.fitCut_entry e []) :).trans hsn
  have hfit : s.fit e = (s.fitCut e []).placeFill e q.tag [] := State.fitWithout_place h hplace hq
  rw [hfit, State.placeFill_refused hsnap (.inl hlen), State.modEntry, State.entry_setEntry_self]
  exact ⟨rfl, State.fitCut_fillStatus hn hdrop, htags⟩

/-! ### The obligation -/

/-- The decisions of one candidate, with its room written out. -/
theorem fitCandidate_decides (s : State) (b : BreakEntry) (plan : FitPlan) (r : CueRecord) {sn : Snapshot} (h : r.snapshot = some sn) :
    let p := plan.point s.now r
    let left := room b.rejoin p
    (sn.cls = .advert → sn.elen ≤ left → s.fitCandidate b plan r = plan.keeping r.tag none (addAir p sn.elen) (addAir p sn.segue))
    ∧ (sn.cls = .advert → left < sn.elen → s.fitCandidate b plan r = plan.dropping r.tag)
    ∧ (sn.cls ≠ .advert → left ≤ 24000 → s.fitCandidate b plan r = plan.dropping r.tag)
    ∧ (sn.cls ≠ .advert → 24000 < left → sn.elen ≤ left →
        s.fitCandidate b plan r = plan.keeping r.tag none (addAir p sn.elen) (addAir p sn.segue))
    ∧ (sn.cls ≠ .advert → 24000 < left → left < sn.elen →
        s.fitCandidate b plan r = plan.keeping r.tag (some b.rejoin) b.rejoin (addAir p (min sn.segue left))) := by
  intro p left
  rw [State.fitCandidate_some h]
  refine ⟨fun ha hfit => ?_, fun ha hover => ?_, fun ha hlow => ?_, fun ha hmore hfit => ?_, fun ha hmore hover => ?_⟩
  · rw [if_pos ha, if_pos hfit]
  · rw [if_pos ha, if_neg (Nat.not_le.mpr hover)]
  · rw [if_neg ha, if_neg (Nat.not_lt.mpr hlow)]
  · rw [if_neg ha, if_pos hmore, if_neg (Nat.not_lt.mpr hfit)]
  · rw [if_neg ha, if_pos hmore, if_pos hover]

/-- The fill's decision where no fill stands. -/
theorem planFill_decides (s : State) (b : BreakEntry) (prior : Option Prior) (projected : Nat) (h : s.fillRecord b = none) :
    let gap := room b.rejoin projected
    ((s.planFill b prior projected).place = true ↔ b.fillStatus = .unplaced ∧ b.fillState = .ready ∧ 0 < gap ∧ prior.isSome = true)
    ∧ ((s.planFill b prior projected).place = true → ∀ sn, b.fillSnapshot = some sn →
        (s.planFill b prior projected).short = decide (sn.elen < gap))
    ∧ ((s.planFill b prior projected).place = false → (s.planFill b prior projected).short = decide (0 < gap))
    ∧ (s.planFill b prior projected).drop = none := by
  intro gap
  rw [State.planFill_fresh h]
  split
  · rename_i hc
    refine ⟨⟨fun _ => hc, fun _ => rfl⟩, fun _ sn hsn => ?_, nofun, rfl⟩
    rw [BreakEntry.fillElen, hsn]
  · rename_i hc
    exact ⟨⟨nofun, fun h => absurd h hc⟩, nofun, fun _ => rfl, rfl⟩

/-- Settles O37: the candidate's and the fill's decisions by their tables; a fit carried out stage by stage. -/
theorem fitsKeepShortenAndDrop : Obligations.FitsKeepShortenAndDrop := by
  unfold Obligations.FitsKeepShortenAndDrop
  refine ⟨fun s b plan r => ⟨fun h => State.fitCandidate_none h b plan, fun sn h => fitCandidate_decides s b plan r h⟩,
    fun s b prior projected h => planFill_decides s b prior projected h, fun s e h => State.fitWithout_notRunning h [], ?_⟩
  intro s e hst hs v plan t
  obtain ⟨-, hn⟩ := id hs
  have hplan : plan = s.fitPlan e [] := by
    rw [State.fitPlan, State.fitView_nil]
  have hnow : v.now = s.now := (s.after_judgeFillFade e).now_eq
  obtain ⟨hproj, hover, hstate, hrejoin⟩ := State.fit_entry hst
  have hprojected : (s.fitPlan e []).projected v.now = (match plan.prior with | some q => q.finish | none => s.now) := by
    rw [hplan, hnow]
    rfl
  have hfill : s.fitFill e [] = v.planFill (v.entry e) plan.prior (match plan.prior with | some q => q.finish | none => s.now) := by
    rw [← hprojected, State.fitFill, State.fitView_nil, hplan]
  refine ⟨s.after_fit e, hproj.trans (congrArg some hprojected), ?_, hstate, hrejoin, ?_, ?_, ?_, ?_⟩
  · rw [hplan]
    exact hover
  · rw [hplan]
    exact fun tag htag hlt => State.fit_gone hst htag hlt
  · rw [hplan]
    exact fun hroom tag htag => State.fit_logged hst hn hroom htag
  · rw [hplan]
    exact State.fit_truncEnds hst hn
  · intro b fill
    have hfill' : fill = s.fitFill e [] := hfill.symm
    rw [hfill', hplan]
    refine ⟨fun hplace => State.fit_noFill hst hn hplace, fun q sn hplace hq hsn => ⟨fun hroom => ?_, fun hfull hdrops hdrop => ?_⟩⟩
    · exact State.fit_places hst hs hplace hq hsn hroom
    · exact State.fit_refuses hst hn hplace hq hsn hfull hdrops hdrop

end Sys2Proof.Machine
end


section
/-! CLEAR at the running order: every record in turn, and what is left to do afterwards. -/

namespace Sys2Proof.Machine

variable {s t u : State} {d : DeckNo}

/-! ### What departures leave to do (R57) -/

/-- A reaction that a departure asks for, or the grant at a command's end. -/
def Task.leftover : Task → Bool
  | .memberLeft _ _ _ => true
  | .followEnd _ => true
  | .rejudge _ => true
  | .bind => true
  | .deckIdle _ => true
  | .grant => true
  | .boundary => true
  | _ => false

theorem leftover_departure (r : CueRecord) (started : Bool) (follower : Option Nat) :
    ∀ k ∈ leftTasks r ++ followTasks started follower ++ [.bind] ++ idleTasks r, k.leftover = true := by
  have hleft : ∀ k ∈ leftTasks r, k.leftover = true := by
    unfold leftTasks
    cases r.breakId with
    | none => exact nofun
    | some id => exact fun k hk => List.mem_singleton.mp hk ▸ rfl
  have hfollow : ∀ k ∈ followTasks started follower, k.leftover = true := by
    unfold followTasks
    cases follower with
    | none => exact nofun
    | some f => cases started <;> exact fun k hk => List.mem_singleton.mp hk ▸ rfl
  have hidle : ∀ k ∈ idleTasks r, k.leftover = true := by
    unfold idleTasks
    split
    · intro k hk
      simp only [List.mem_cons, List.not_mem_nil, or_false] at hk
      obtain rfl | rfl := hk <;> rfl
    · exact nofun
  intro k hk
  simp only [List.mem_append, List.mem_singleton] at hk
  obtain ((hk | hk) | rfl) | hk := hk
  · exact hleft k hk
  · exact hfollow k hk
  · rfl
  · exact hidle k hk

/-- Every reaction that stands is one that a departure asks for. -/
def State.Leftover (s : State) : Prop := ∀ k ∈ s.work, k.leftover = true

theorem State.endItem_leftover (h : s.Leftover) (d : DeckNo) (c : Cause) : (s.endItem d c).Leftover := by
  cases hb : (s.deck d).bound with
  | none => simpa only [State.endItem, hb] using h
  | some tag =>
    cases hit : (s.deck d).item with
    | none => simpa only [State.endItem, hb, hit] using h
    | some it =>
      cases hf : s.find tag with
      | none => simpa only [State.endItem, hb, hit, hf] using h
      | some r =>
        rw [State.endItem_eq hb hit hf]
        have hframe := (s.withdrawDuck d).handLive_frame (.finish ⟨wordField tag, byteField it.group.val,
          byteField (r.finalCause c).outcome.code, timeField (some s.now)⟩)
        generalize (s.withdrawDuck d).handLive _ = v at hframe
        have hwork : v.work = s.work := by rw [hframe]; exact s.work_withdrawDuck d
        have hrecords : v.records = s.records := by rw [hframe]; exact s.records_withdrawDuck d
        have hfv : v.find tag = some r := by rw [State.find, hrecords]; exact hf
        obtain ⟨-, -, -, hgone⟩ := State.removeRecord_leaves hfv c false
        rw [State.depart_eq hfv]
        intro k hk
        rw [State.emit_work, hgone, hwork] at hk
        obtain hk | hk := List.mem_append.mp hk
        · exact h k (List.mem_of_mem_filter hk)
        · exact leftover_departure r _ _ k hk

theorem State.requestFade_leftover (h : s.Leftover) (d : DeckNo) (len : Nat) (law : Law) (c : Cause) (entry : Nat) :
    (s.requestFade d len law c entry).Leftover := by
  cases hq : (s.deck d).fadeEntry len entry with
  | none =>
    rw [State.requestFade_none hq]
    exact h
  | some q =>
    rw [State.requestFade_some hq]
    by_cases hlt : q < len
    · rw [State.enterFade_fades hlt]
      intro k hk
      rw [State.work_withdrawDuck, State.setDeck_work] at hk
      exact h k hk
    · rw [State.enterFade_ends (Nat.not_lt.mp hlt)]
      exact State.endItem_leftover h d c

theorem State.clearFade_leftover (h : s.Leftover) (d : DeckNo) (law : Law) : (s.clearFade d law).Leftover := by
  unfold State.clearFade
  split
  · exact h
  · exact State.requestFade_leftover h _ _ _ _ _

theorem State.clearFade_asked (s : State) (d : DeckNo) (law : Law) : s.FadeAsked (s.clearFade d law) d := by
  unfold State.clearFade
  split
  · exact .none rfl
  · exact s.requestFade_asked _ _ _ _ _

/-! ### One record cleared (R55) -/

/-- A record that is on the air becomes CLEARING. -/
def CueRecord.clearing (tag : Nat) (v : CueRecord) : CueRecord := if v.tag = tag then { v with state := .clearing } else v

theorem CueRecord.clearing_tag (tag : Nat) (v : CueRecord) : (v.clearing tag).tag = v.tag := by
  unfold CueRecord.clearing
  split <;> rfl

theorem CueRecord.clearing_deck (tag : Nat) (v : CueRecord) : (v.clearing tag).deck = v.deck := by
  unfold CueRecord.clearing
  split <;> rfl

/-- The state with a record CLEARING. -/
def State.nowClearing (s : State) (tag : Nat) : State := s.modRecord tag fun r => { r with state := .clearing }

theorem State.nowClearing_records (s : State) (tag : Nat) : (s.nowClearing tag).records = s.records.map (CueRecord.clearing tag) := rfl

/-- What a CLEAR does to one record: nothing, its departure, or its fade. -/
inductive State.ClearsOne (s t : State) (tag : Nat) : Prop where
  | absent (h : s.find tag = none) (ht : t = s)
  | leaves (r : CueRecord) (h : s.find tag = some r) (hr : r.unstarted = true) (ht : t = s.removeRecord tag ⟨.dropped, .cleared⟩ false)
  | clears (r : CueRecord) (h : s.find tag = some r) (hr : r.state = .onAir) (hd : r.deck = none) (ht : t = s.nowClearing tag)
  | fades (r : CueRecord) (d : DeckNo) (h : s.find tag = some r) (hr : r.state = .onAir) (hd : r.deck = some d)
      (ht : t = (s.nowClearing tag).clearFade d r.law)
  | stays (r : CueRecord) (h : s.find tag = some r) (hr : r.state = .clearing) (ht : t = s)

theorem State.clearRecord_clears (s : State) (tag : Nat) : s.ClearsOne (s.clearRecord tag) tag := by
  cases h : s.find tag with
  | none => exact .absent h (by simp only [State.clearRecord, h])
  | some r =>
    have hleaves (hr : r.unstarted = true) : s.clearRecord tag = s.removeRecord tag ⟨.dropped, .cleared⟩ false := by
      simp only [State.clearRecord, h, hr, if_true]
    cases hs : r.state with
    | onAir =>
      have hun : r.unstarted = false := by
        rw [CueRecord.unstarted, hs]
        rfl
      cases hd : r.deck with
      | none =>
        refine .clears r h hs hd ?_
        simp only [State.clearRecord, h, hun, hs, hd, Bool.false_eq_true, if_false, if_true]
        rfl
      | some d =>
        refine .fades r d h hs hd ?_
        simp only [State.clearRecord, h, hun, hs, hd, Bool.false_eq_true, if_false, if_true]
        rfl
    | clearing =>
      refine .stays r h hs ?_
      have hun : r.unstarted = false := by
        rw [CueRecord.unstarted, hs]
        rfl
      simp only [State.clearRecord, h, hun, hs, Bool.false_eq_true, if_false, reduceCtorEq]
    | headerWait =>
      have hr : r.unstarted = true := by rw [CueRecord.unstarted, hs]; rfl
      exact .leaves r h hr (hleaves hr)
    | queued =>
      have hr : r.unstarted = true := by rw [CueRecord.unstarted, hs]; rfl
      exact .leaves r h hr (hleaves hr)
    | bound =>
      have hr : r.unstarted = true := by rw [CueRecord.unstarted, hs]; rfl
      exact .leaves r h hr (hleaves hr)
    | armed =>
      have hr : r.unstarted = true := by rw [CueRecord.unstarted, hs]; rfl
      exact .leaves r h hr (hleaves hr)

theorem State.ClearsOne.leftover {tag : Nat} (k : s.ClearsOne t tag) (h : s.Leftover) : t.Leftover := by
  cases k with
  | absent _ ht => rwa [ht]
  | leaves r hf _ ht =>
    obtain ⟨-, -, -, hwork⟩ := State.removeRecord_leaves hf ⟨.dropped, .cleared⟩ false
    rw [ht]
    intro k hk
    rw [hwork] at hk
    exact h k (List.mem_of_mem_filter hk)
  | clears r _ _ _ ht => rw [ht]; exact h
  | fades r d _ _ _ ht => rw [ht]; exact State.clearFade_leftover (s := s.nowClearing tag) h _ _
  | stays r _ _ ht => rwa [ht]

/-- After its turn a record is CLEARING or gone; the others are as they were, or gone. -/
theorem State.ClearsOne.records {tag : Nat} (k : s.ClearsOne t tag) (hn : s.tags.Nodup) : ∀ v ∈ t.records,
    (v.tag = tag ∧ v.state = .clearing ∧ v.tag ∈ s.tags) ∨ (v.tag ≠ tag ∧ v ∈ s.records) := by
  have hmap {v : CueRecord} (hv : v ∈ (s.nowClearing tag).records) :
      (v.tag = tag ∧ v.state = .clearing ∧ v.tag ∈ s.tags) ∨ (v.tag ≠ tag ∧ v ∈ s.records) := by
    rw [State.nowClearing_records] at hv
    obtain ⟨w, hw, rfl⟩ := List.mem_map.mp hv
    rw [CueRecord.clearing_tag]
    unfold CueRecord.clearing
    split
    · rename_i hwt
      exact .inl ⟨hwt, rfl, State.mem_tags.mpr ⟨w, hw, rfl⟩⟩
    · rename_i hwt
      exact .inr ⟨hwt, hw⟩
  intro v hv
  cases k with
  | absent hf ht =>
    rw [ht] at hv
    exact .inr ⟨fun hvt => (s.find_none_iff tag).mp hf (State.mem_tags.mpr ⟨v, hv, hvt⟩), hv⟩
  | leaves r hf _ ht =>
    rw [ht, (State.removeRecord_removed hf _ _).records] at hv
    obtain ⟨hv, hne⟩ := List.mem_filter.mp hv
    exact .inr ⟨by simpa using hne, hv⟩
  | clears r _ _ _ ht => rw [ht] at hv; exact hmap hv
  | fades r d _ _ _ ht => rw [ht] at hv; exact hmap (((s.nowClearing tag).clearFade_asked d r.law).mem_records hv)
  | stays r hf hr ht =>
    rw [ht] at hv
    by_cases hvt : v.tag = tag
    · obtain rfl := eq_of_tag hn (State.find_mem hf) hv (hvt.trans (State.find_tag hf).symm)
      exact .inl ⟨hvt, hr, State.mem_tags.mpr ⟨v, hv, rfl⟩⟩
    · exact .inr ⟨hvt, hv⟩

theorem State.nowClearing_tags (s : State) (tag : Nat) : (s.nowClearing tag).tags = s.tags :=
  State.tags_map (s.nowClearing_records tag) (CueRecord.clearing_tag tag)

theorem State.ClearsOne.nodup {tag : Nat} (k : s.ClearsOne t tag) (hn : s.tags.Nodup) : t.tags.Nodup := by
  have hn' : (s.nowClearing tag).tags.Nodup := by rwa [State.nowClearing_tags]
  cases k with
  | absent _ ht => rwa [ht]
  | leaves r hf _ ht =>
    rw [ht, (State.removeRecord_removed hf _ _).tags]
    exact hn.filter _
  | clears r _ _ _ ht => rwa [ht]
  | fades r d _ _ _ ht => rw [ht]; exact ((s.nowClearing tag).clearFade_asked d r.law).nodup hn'
  | stays r _ _ ht => rwa [ht]

/-- A sounding item's record becoming CLEARING changes nothing of the item. -/
theorem State.Sounds.nowClearing {tag : Nat} {x : Deck} {q : Option DuckRequest} (h : s.Sounds d tag x q) (other : Nat) :
    (s.nowClearing other).Sounds d tag x q := by
  have hsound (v : CueRecord) (hv : v.sounding = true) : (v.clearing other).sounding = true := by
    unfold CueRecord.clearing
    split
    · rfl
    · exact hv
  refine h.map (f := CueRecord.clearing other) rfl (CueRecord.clearing_tag other) (fun v _ => ?_) (fun v hv hvt => ?_) rfl rfl rfl rfl
    (fun _ => id) rfl
  · rw [CueRecord.clearing_deck]
    exact id
  · have hs := h.sounding v hv hvt
    rw [hs, hsound v hs]

/-- Another record's turn leaves a sounding item, and its record, as they are. -/
theorem State.ClearsOne.sounds {other : Nat} (k : s.ClearsOne t other) {r : CueRecord} {x : Deck} {q : Option DuckRequest}
    (hne : other ≠ r.tag) (h : s.Sounds d r.tag x q) : t.Sounds d r.tag x q ∧ (r ∈ s.records → r ∈ t.records) := by
  have hkeep (hr : r ∈ s.records) : r ∈ (s.nowClearing other).records := by
    rw [State.nowClearing_records]
    exact List.mem_map.mpr ⟨r, hr, if_neg hne.symm⟩
  cases k with
  | absent _ ht => rw [ht]; exact ⟨h, id⟩
  | leaves v hf hun ht =>
    have hgone := State.removeRecord_removed hf ⟨.dropped, .cleared⟩ false
    obtain ⟨-, -, hmix, -⟩ := State.removeRecord_leaves hf ⟨.dropped, .cleared⟩ false
    obtain ⟨-, hvd⟩ := h.not_waiting (State.find_mem hf) hun
    rw [ht]
    refine ⟨hgone.sounds h (by rw [hmix]) hne hvd, fun hr => ?_⟩
    rw [hgone.records]
    exact List.mem_filter.mpr ⟨hr, by simpa using hne.symm⟩
  | clears v _ _ _ ht => rw [ht]; exact ⟨h.nowClearing other, hkeep⟩
  | fades v e hf _ hvd ht =>
    have hed : e ≠ d := fun hed => hne ((State.find_tag hf).symm.trans (h.mine v (State.find_mem hf) (hed ▸ hvd)))
    have hasked := (s.nowClearing other).clearFade_asked e v.law
    have hs := h.nowClearing other
    rw [ht]
    refine ⟨hasked.sounds hs hed, fun hr => ?_⟩
    cases hasked with
    | none ha => rw [ha]; exact hkeep hr
    | fades y _ _ hrecords => rw [hrecords]; exact hkeep hr
    | ends tag w _ hbound _ hgone _ =>
      rw [hgone.records]
      refine List.mem_filter.mpr ⟨hkeep hr, ?_⟩
      have htag : tag ≠ r.tag := fun ht => hed (hs.only e (ht ▸ hbound))
      simpa using htag.symm
  | stays v _ _ ht => rw [ht]; exact ⟨h, id⟩

/-- The fade that a CLEAR gives an item on the air, or lets it keep. -/
theorem State.ClearsOne.item {r : CueRecord} (k : s.ClearsOne t r.tag) (hn : s.tags.Nodup) (hr : r ∈ s.records) (hst : r.state = .onAir)
    (hd : r.deck = some d) {x : Deck} {q : Option DuckRequest} (h : s.Sounds d r.tag x q) :
    (x.state = .playing → x.fadeIn = none → x.fadeOut = none → t.Sounds d r.tag
      { x with state := .fading, fadeOut := some ⟨0, 480, r.law, ⟨.faded, .cleared⟩⟩ } none)
    ∧ (x.endsSoon = true → t.Sounds d r.tag x q) := by
  have hfind {v : CueRecord} (hf : s.find r.tag = some v) : v = r := eq_of_tag hn hr (State.find_mem hf) (State.find_tag hf)
  cases k with
  | absent hf _ => exact absurd (State.mem_tags.mpr ⟨r, hr, rfl⟩) ((s.find_none_iff _).mp hf)
  | leaves v hf hun _ =>
    rw [hfind hf, CueRecord.unstarted, hst] at hun
    cases hun
  | clears v hf _ hvd _ =>
    rw [hfind hf, hd] at hvd
    cases hvd
  | fades v e hf _ hvd ht =>
    obtain rfl := hfind hf
    obtain rfl := Option.some.inj (hd.symm.trans hvd)
    have hs := h.nowClearing v.tag
    rw [ht]
    refine ⟨fun hplay hin hout => ?_, fun hsoon => ?_⟩
    · rw [State.clearFade_requests (by rw [Deck.endsSoon, hs.fadeOut, hout]; rfl)]
      exact hs.fades hplay hin (by decide) _ _
    · rw [State.clearFade_keeps (by rw [Deck.endsSoon, hs.fadeOut]; exact hsoon)]
      exact hs
  | stays v hf hc _ =>
    rw [hfind hf, hst] at hc
    cases hc

/-! ### Every record cleared -/

/-- Those still to come are as they were; the others are CLEARING. -/
theorem clearRecords_records (l : List Nat) (s : State) (hn : s.tags.Nodup) (h : ∀ v ∈ s.records, v.state = .clearing ∨ v.tag ∈ l) :
    ∀ v ∈ (l.foldl State.clearRecord s).records, v.state = .clearing ∧ v.tag ∈ s.tags := by
  induction l generalizing s with
  | nil => exact fun v hv => ⟨(h v hv).resolve_right List.not_mem_nil, State.mem_tags.mpr ⟨v, hv, rfl⟩⟩
  | cons tag l ih =>
    have k := s.clearRecord_clears tag
    have hrecords := k.records hn
    intro v hv
    have hstep := ih (s.clearRecord tag) (k.nodup hn) (fun w hw => ?_) v hv
    · obtain ⟨w, hw, hwt⟩ := State.mem_tags.mp hstep.2
      refine ⟨hstep.1, ?_⟩
      obtain ⟨-, -, hm⟩ | ⟨-, hm⟩ := hrecords w hw
      · exact hwt ▸ hm
      · exact State.mem_tags.mpr ⟨w, hm, hwt⟩
    · obtain ⟨-, hc, -⟩ | ⟨hne, hm⟩ := hrecords w hw
      · exact .inl hc
      · exact (h w hm).imp_right fun hl => (List.mem_cons.mp hl).resolve_left hne

theorem clearRecords_leftover (l : List Nat) (s : State) (h : s.Leftover) : (l.foldl State.clearRecord s).Leftover := by
  induction l generalizing s with
  | nil => exact h
  | cons tag l ih => exact ih _ ((s.clearRecord_clears tag).leftover h)

theorem clearRecords_nodup (l : List Nat) (s : State) (hn : s.tags.Nodup) : (l.foldl State.clearRecord s).tags.Nodup := by
  induction l generalizing s with
  | nil => exact hn
  | cons tag l ih => exact ih _ ((s.clearRecord_clears tag).nodup hn)

theorem clearRecords_others {r : CueRecord} {x : Deck} {q : Option DuckRequest} (l : List Nat) (s : State) (hl : r.tag ∉ l)
    (h : s.Sounds d r.tag x q) :
    (l.foldl State.clearRecord s).Sounds d r.tag x q ∧ (r ∈ s.records → r ∈ (l.foldl State.clearRecord s).records) := by
  induction l generalizing s with
  | nil => exact ⟨h, id⟩
  | cons tag l ih =>
    rw [List.mem_cons, not_or] at hl
    obtain ⟨hs, hm⟩ := (s.clearRecord_clears tag).sounds (fun ht => hl.1 ht.symm) h
    obtain ⟨hs', hm'⟩ := ih _ hl.2 hs
    exact ⟨hs', fun hr => hm' (hm hr)⟩

end Sys2Proof.Machine
end


section
/-! CLEAR: what its owners empty, and that what is left to do afterwards brings nothing back. -/

namespace Sys2Proof.Machine

variable {s t u : State} {d : DeckNo}

/-! ### What is left to do in an emptied engine -/

/-- An engine that a CLEAR has emptied: CLEARING records with tags it had, no fetch, no break, no duck request, no timer, no STORE flag,
and nothing left to do but what departures ask for. -/
structure State.Emptied (s : State) (tags : List Nat) : Prop where
  records : ∀ r ∈ s.records, r.state = .clearing ∧ r.tag ∈ tags
  reader : s.reader.queue = [] ∧ s.reader.waiting = [] ∧ s.reader.fetch = none
  entries : ∀ e : EntryNo, s.entry e = {}
  decks : ∀ d : DeckNo, s.mix.requests[d] = none ∧ s.monitor.timers[d] = 0 ∧ (s.deck d).storeFlag = false
  leftover : s.Leftover

theorem State.Emptied.withWork {tags : List Nat} (h : s.Emptied tags) {l : List Task} (hl : ∀ k ∈ l, k.leftover = true) :
    ({ s with work := l } : State).Emptied tags where
  records := h.records
  reader := h.reader
  entries := h.entries
  decks := h.decks
  leftover := hl

theorem State.Emptied.sounding {tags : List Nat} (h : s.Emptied tags) {r : CueRecord} (hr : r ∈ s.records) : r.unstarted = false := by
  rw [CueRecord.unstarted, (h.records r hr).1]
  rfl

theorem State.Emptied.trigger {tags : List Nat} (h : s.Emptied tags) (tag : Nat) : s.trigger tag = s := by
  cases hf : s.find tag with
  | none => simp only [State.trigger, hf]
  | some r => simp only [State.trigger, hf, h.sounding (State.find_mem hf), Bool.not_false, if_true]

theorem State.Emptied.followEnd {tags : List Nat} (h : s.Emptied tags) (tag : Nat) : s.followEnd tag = s := by
  unfold State.followEnd
  split
  · rfl
  · split
    · exact h.trigger tag
    · exact h.trigger tag
    · split
      · exact h.trigger tag
      · rfl
    · rfl
    · rfl
    · rfl

theorem State.Emptied.rejudge {tags : List Nat} (h : s.Emptied tags) (tag : Nat) : s.rejudge tag = s := by
  cases hf : s.find tag with
  | none => simp only [State.rejudge, hf]
  | some r => simp only [State.rejudge, hf, h.sounding (State.find_mem hf), Bool.false_and, Bool.false_eq_true, if_false]

theorem State.Emptied.bind {tags : List Nat} (h : s.Emptied tags) : s.bind = s := by
  have hnone : s.earliestQueued [] = none := by
    rw [State.earliestQueued, List.find?_eq_none]
    intro r hr
    simp [(h.records r hr).1]
  exact State.bind_none (by simp only [State.bindOnce, hnone])

theorem State.Emptied.memberLeft {tags : List Nat} (h : s.Emptied tags) (id : Nat) (g : Group) (fill : Bool) (gone : List Nat) :
    s.memberLeft id g fill gone = s := by
  have hnone : s.entryOf id = none := State.entryOf_none fun i ⟨hi, _⟩ => by
    rw [h.entries i] at hi
    cases hi
  simp only [State.memberLeft, hnone]

/-- A deck changed in its ring, its fetch pointer or its state. -/
theorem State.Emptied.setDeck {tags : List Nat} (h : s.Emptied tags) (d : DeckNo) {x : Deck} (hx : x.storeFlag = (s.deck d).storeFlag) :
    (s.setDeck d x).Emptied tags where
  records := h.records
  reader := h.reader
  entries := h.entries
  decks := fun e => by
    obtain ⟨hrequest, htimer, hflag⟩ := h.decks e
    refine ⟨hrequest, htimer, ?_⟩
    by_cases hde : d = e
    · subst hde
      rw [State.deck_setDeck_self, hx]
      exact hflag
    · rw [State.deck_setDeck_ne _ _ _ _ hde]
      exact hflag
  leftover := h.leftover

/-- A read issued in an emptied engine. -/
theorem State.Emptied.issue {tags : List Nat} (h : s.Emptied tags) (p : Purpose) (unit units : Nat) (retry : Bool) :
    (s.issue p unit units retry).Emptied tags where
  records := h.records
  reader := h.reader
  entries := h.entries
  decks := h.decks
  leftover := h.leftover

theorem State.Emptied.arbiter {tags : List Nat} (h : s.Emptied tags) (d : DeckNo) :
    (s.modReader fun r => { r with arbiter := d }).Emptied tags where
  records := h.records
  reader := h.reader
  entries := h.entries
  decks := h.decks
  leftover := h.leftover

/-- A deck with another ring and fetch pointer. -/
def Deck.granted (x : Deck) (i : Fin 16) : Deck := { x with ring := x.ring.set i (.inFlight x.fetchPtr), fetchPtr := x.fetchPtr + 1 }

/-- In an emptied engine a grant is made to a deck, or none. -/
inductive State.GrantsDeck (s t : State) : Prop where
  | none (ht : t = s)
  | deck (d : DeckNo) (i : Fin 16) (it : Item) (ht : t = (((s.setDeck d ((s.deck d).granted i)).modReader fun r =>
      { r with arbiter := d }).issue (.block d i (s.deck d).fetchPtr) (blockUnit it.firstBlock it.format (s.deck d).fetchPtr)
        (unitsPerBlock it.format) false))

theorem State.grantDeck_grants (s : State) (d : DeckNo) : s.GrantsDeck (s.grantDeck d) := by
  unfold State.grantDeck
  dsimp only
  split
  · exact .deck d _ _ rfl
  · exact .none rfl

theorem State.Emptied.grant {tags : List Nat} (h : s.Emptied tags) : s.GrantsDeck s.grant := by
  obtain ⟨hqueue, -, hfetch⟩ := h.reader
  have hheader : s.reader.headerStands = false := by
    rw [StoreReader.headerStands, hfetch, hqueue]
    rfl
  unfold State.grant
  split
  · exact .none rfl
  · split
    · exact s.grantDeck_grants _
    · rw [if_neg (by rw [hheader]; decide)]
      split
      · exact s.grantDeck_grants _
      · exact .none rfl

/-- A reaction left to do changes decks that are done with, or grants. -/
inductive State.Settles (s t : State) : Prop where
  | none (ht : t = s)
  | idle (d : DeckNo) (h : (s.deck d).bound = .none) (ht : t = s.setDeck d { s.deck d with state := .idle })
  | grants (h : s.GrantsDeck t)

theorem State.Emptied.perform {tags : List Nat} (h : s.Emptied tags) {k : Task} (hk : k.leftover = true) : s.Settles (s.perform k) := by
  cases k with
  | memberLeft id g fill => exact .none (h.memberLeft id g fill [])
  | followEnd tag => exact .none (h.followEnd tag)
  | rejudge tag => exact .none (h.rejudge tag)
  | bind => exact .none h.bind
  | deckIdle d =>
    cases hb : (s.deck d).bound with
    | none => exact .idle d hb (if_pos (by rw [hb]; rfl))
    | some x => exact .none (if_neg (by rw [hb]; exact Bool.false_ne_true))
  | grant => exact .grants h.grant
  | boundary => exact .none rfl
  | _ => cases hk

theorem State.Settles.emptied {tags : List Nat} (k : s.Settles t) (h : s.Emptied tags) : t.Emptied tags := by
  cases k with
  | none ht => rwa [ht]
  | idle d hb ht => rw [ht]; exact h.setDeck d rfl
  | grants k =>
    cases k with
    | none ht => rwa [ht]
    | deck d i it ht => rw [ht]; exact ((h.setDeck d (x := (s.deck d).granted i) rfl).arbiter d).issue _ _ _ _

theorem State.Settles.sounds (k : s.Settles t) {tag : Nat} {x : Deck} {q : Option DuckRequest} (h : s.Sounds d tag x q) :
    t.Sounds d tag x q := by
  have hset (e : DeckNo) (y : Deck) (hstate : e = d → y.state = (s.deck e).state) (hin : y.fadeIn = (s.deck e).fadeIn)
      (hout : y.fadeOut = (s.deck e).fadeOut) (hbound : y.bound = (s.deck e).bound) : (s.setDeck e y).Sounds d tag x q := by
    have hfield {α : Type} (f : Deck → α) (i : DeckNo) (hf : e = i → f y = f (s.deck e)) : f ((s.setDeck e y).deck i) = f (s.deck i) := by
      by_cases he : e = i
      · subst he
        rw [State.deck_setDeck_self, hf rfl]
      · rw [State.deck_setDeck_ne _ _ _ _ he]
    exact h.of_parts (hfield Deck.state d hstate) (hfield Deck.fadeIn d fun _ => hin) (hfield Deck.fadeOut d fun _ => hout)
      (hfield Deck.bound d fun _ => hbound) (fun i hi => (hfield Deck.bound i fun _ => hbound).symm.trans hi) rfl h.present h.mine
      h.sounding
  cases k with
  | none ht => rwa [ht]
  | idle e hb ht =>
    rw [ht]
    refine hset e _ (fun he => ?_) rfl rfl rfl
    subst he
    rw [h.bound] at hb
    cases hb
  | grants k =>
    cases k with
    | none ht => rwa [ht]
    | deck e i it ht =>
      rw [ht]
      exact (hset e ((s.deck e).granted i) (fun _ => rfl) rfl rfl rfl).congr rfl rfl rfl

theorem mem_newFirst {l : List Task} {k : Task} (h : k ∈ newFirst l) : k ∈ l := by
  obtain h | h := List.mem_append.mp h
  · exact (List.dropWhile_sublist _).subset (List.mem_of_mem_drop h)
  · exact (List.takeWhile_sublist _).subset h

/-- What is left to do keeps an emptied engine empty, and its items in their fades. -/
theorem State.Emptied.run {tags : List Nat} {P : State → Prop} (hP : ∀ s t : State, s.Settles t → P s → P t)
    (hwork : ∀ (s : State) (l : List Task), P s → P { s with work := l }) (n : Nat) (h : s.Emptied tags) (hs : P s) :
    (s.run n).Emptied tags ∧ P (s.run n) := by
  induction n generalizing s with
  | zero => exact ⟨h, hs⟩
  | succ n ih =>
    unfold State.run
    split
    · exact ⟨h, hs⟩
    · rename_i k rest hk
      have hrest : ∀ j ∈ rest ++ [Task.boundary], j.leftover = true := by
        intro j hj
        obtain hj | hj := List.mem_append.mp hj
        · exact h.leftover j (hk ▸ List.mem_cons_of_mem _ hj)
        · exact List.mem_singleton.mp hj ▸ rfl
      have hfirst : k.leftover = true := h.leftover k (hk ▸ List.mem_cons_self ..)
      have hstart := h.withWork hrest
      have hsettles := hstart.perform hfirst
      have hdone := hsettles.emptied hstart
      exact ih (hdone.withWork fun j hj => hdone.leftover j (mem_newFirst hj)) (hwork _ _ (hP _ _ hsettles (hwork _ _ hs)))

theorem State.Emptied.finish {tags : List Nat} {P : State → Prop} (hP : ∀ s t : State, s.Settles t → P s → P t)
    (hwork : ∀ (s : State) (l : List Task), P s → P { s with work := l }) (h : s.Emptied tags) (hs : P s) :
    s.finish.Emptied tags ∧ P s.finish := by
  refine State.Emptied.run hP hwork _ (h.withWork fun k hk => ?_) (hwork s _ hs)
  obtain hk | hk := List.mem_append.mp hk
  · exact h.leftover k hk
  · exact List.mem_singleton.mp hk ▸ rfl

/-! ### What CLEAR's owners empty (R32, R105, R122, R140) -/

theorem AsRunLog.SameRecords.refl (l : AsRunLog) : l.SameRecords l := rfl

theorem State.log_handAll (ns : List Notice) (s : State) : s.log.SameRecords (s.handAll ns).log := by
  induction ns generalizing s with
  | nil => exact .refl _
  | cons n ns ih => exact (s.log_handLive n).trans (ih _)

/-- Every duck request withdrawn. -/
theorem State.withdrawDucks_frame (l : List DeckNo) (s : State) : ∃ (v : State) (q : Vector (Option DuckRequest) 4),
    l.foldl State.withdrawDuck s = ({ s with mix := { s.mix with requests := q } } : State).withLine v
      ∧ (∀ d : DeckNo, d ∈ l ∨ s.mix.requests[d] = none → q[d] = none) ∧ s.log.SameRecords v.log := by
  induction l generalizing s with
  | nil => exact ⟨s, s.mix.requests, rfl, fun d hd => hd.resolve_left List.not_mem_nil, .refl _⟩
  | cons e l ih =>
    obtain ⟨v, q, hv, hq, hlog⟩ := ih (s.withdrawDuck e)
    refine ⟨v, q, ?_, fun d hd => ?_, (s.log_withdrawDuck e).trans hlog⟩
    · rw [List.foldl_cons, hv, s.withdrawDuck_frame e]
      rfl
    · by_cases hde : d = e
      · subst hde
        exact hq d (.inr (s.request_withdrawDuck d))
      · refine hq d (hd.imp (fun hm => (List.mem_cons.mp hm).resolve_left hde) fun hn => ?_)
        rw [s.requests_withdrawDuck_ne hde]
        exact hn

/-- Every STORE flag cleared. -/
theorem State.clearStoreFlags_frame (l : List DeckNo) (s : State) : ∃ ds : Vector Deck 4,
    l.foldl (fun s d => s.modDeck d fun x => { x with storeFlag := false }) s = { s with decks := ds }
      ∧ ∀ d : DeckNo, ds[d] = s.deck d ∧ d ∉ l ∨ ds[d] = { s.deck d with storeFlag := false } := by
  induction l generalizing s with
  | nil => exact ⟨s.decks, rfl, fun d => .inl ⟨rfl, List.not_mem_nil⟩⟩
  | cons e l ih =>
    obtain ⟨ds, hds, hd⟩ := ih (s.modDeck e fun x => { x with storeFlag := false })
    refine ⟨ds, hds.trans rfl, fun d => ?_⟩
    have hmod : (s.modDeck e fun x => { x with storeFlag := false }).deck d
        = if e = d then { s.deck e with storeFlag := false } else s.deck d := s.deck_setDeck e d _
    have hd := hd d
    rw [hmod] at hd
    by_cases hed : e = d
    · subst hed
      rw [if_pos rfl] at hd
      exact .inr (hd.elim (fun h => h.1) id)
    · rw [if_neg hed] at hd
      exact hd.imp_left fun ⟨h, hl⟩ => ⟨h, fun hm => hl ((List.mem_cons.mp hm).resolve_left (Ne.symm hed))⟩

/-- An air group's monitor after a CLEAR (R122). -/
def GroupMonitor.cleared (live : Bool) (g : GroupMonitor) : GroupMonitor :=
  { g with
    deadAirFlag := false, overloadFlag := false, silence := 0, overloadRun := 0, state := if live then .sounding else .suspended }

/-- The state that CLEAR's owners leave of the one that the running order has left. -/
def State.emptied (c v : State) (q : Vector (Option DuckRequest) 4) (l : List AirExpiry) (ds : Vector Deck 4) : State :=
  { c with
    bus := v.bus, log := v.log, reader := c.clearReader.reader, mix := { c.mix with requests := q }, airExpiries := l, decks := ds
    breaks := { c.breaks with entries := Vector.replicate 8 {}, full := false }
    monitor := { c.monitor with
      groups := ⟨#[c.monitor.groups[0].cleared c.isLive, c.monitor.groups[1].cleared c.isLive, c.monitor.groups[2].cleared c.isLive], rfl⟩
      timers := Vector.replicate 4 0 } }

theorem State.cancelBreaks_frame (l : List EntryNo) (s : State) : ∃ m, l.foldl
    (fun s e => ((s.cancelAir (.rejoin e)).cancelAir (.fillFade e)).cancelAir (.idHold e)) s = { s with airExpiries := m } := by
  induction l generalizing s with
  | nil => exact ⟨s.airExpiries, rfl⟩
  | cons e l ih =>
    obtain ⟨m, hm⟩ := ih (((s.cancelAir (.rejoin e)).cancelAir (.fillFade e)).cancelAir (.idHold e))
    exact ⟨m, hm⟩

theorem State.clearBreaks_eq (s : State) : ∃ l, s.clearBreaks
    = { s with airExpiries := l, breaks := { s.breaks with entries := Vector.replicate 8 {}, full := false } } := by
  obtain ⟨m, hm⟩ := State.cancelBreaks_frame allEntries s
  refine ⟨m, ?_⟩
  unfold State.clearBreaks
  rw [hm]

theorem State.clearGroupFaults_frame (s : State) : ∃ v : State, allAir.foldl State.clearGroupFaults s = s.withLine v
    ∧ s.log.SameRecords v.log := by
  have hstep (u : State) (a : Fin 3) : ∃ ns, u.clearGroupFaults a = u.handAll ns := by
    unfold State.clearGroupFaults
    dsimp only
    split
    · split
      · exact ⟨[_, _], rfl⟩
      · exact ⟨[_], rfl⟩
    · split
      · exact ⟨[_], rfl⟩
      · exact ⟨[], rfl⟩
  obtain ⟨l, hl⟩ := hstep s 0
  obtain ⟨m, hm⟩ := hstep (s.handAll l) 1
  obtain ⟨n, hn⟩ := hstep ((s.handAll l).handAll m) 2
  have hall : allAir.foldl State.clearGroupFaults s = s.handAll (l ++ m ++ n) := by
    rw [State.handAll_append, State.handAll_append, ← hn, ← hm, ← hl]
    rfl
  exact ⟨s.handAll (l ++ m ++ n), hall.trans (s.handAll_frame _), s.log_handAll _⟩

theorem State.clearMonitor_eq (s : State) : ∃ (v : State) (ds : Vector Deck 4), s.clearMonitor = { s with
      bus := v.bus, log := v.log, decks := ds
      monitor := { s.monitor with
        groups := ⟨#[s.monitor.groups[0].cleared s.isLive, s.monitor.groups[1].cleared s.isLive, s.monitor.groups[2].cleared s.isLive], rfl⟩
        timers := Vector.replicate 4 0 } }
    ∧ (∀ d : DeckNo, ds[d] = { s.deck d with storeFlag := false }) ∧ s.log.SameRecords v.log := by
  obtain ⟨v, hv, hlog⟩ := s.clearGroupFaults_frame
  obtain ⟨ds, hds, hd⟩ := State.clearStoreFlags_frame allDecks
    ((s.withLine v).modGroups fun g => { g with deadAirFlag := false, overloadFlag := false })
  refine ⟨v, ds, ?_, fun d => ?_, hlog⟩
  · unfold State.clearMonitor State.clearLatched State.clearStoreFlags
    dsimp only
    rw [hv, hds]
    rfl
  · obtain ⟨-, hn⟩ | h := hd d
    · exact absurd (mem_allDecks d) hn
    · exact h

/-- The owners of a CLEAR after the running order. -/
theorem State.takeClear_eq (s : State) : ∃ (v : State) (q : Vector (Option DuckRequest) 4) (l : List AirExpiry) (ds : Vector Deck 4),
    s.takeClear = s.monitorWindowAt.clearRecords.emptied v q l ds ∧ (∀ d : DeckNo, q[d] = none)
      ∧ (∀ d : DeckNo, ds[d] = { s.monitorWindowAt.clearRecords.deck d with storeFlag := false })
      ∧ s.monitorWindowAt.clearRecords.log.SameRecords v.log := by
  unfold State.takeClear
  generalize s.monitorWindowAt.clearRecords = c
  obtain ⟨v, q, hv, hq, hlog⟩ := State.withdrawDucks_frame allDecks c.clearReader
  obtain ⟨l, hl⟩ := (({ c.clearReader with mix := { c.clearReader.mix with requests := q } } : State).withLine v).clearBreaks_eq
  obtain ⟨w, ds, hw, hds, hlog'⟩ := State.clearMonitor_eq
    ((({ c.clearReader with mix := { c.clearReader.mix with requests := q } } : State).withLine v).clearBreaks)
  refine ⟨w, q, l, ds, ?_, fun d => hq d (.inl (mem_allDecks d)), fun d => ?_, ?_⟩
  · rw [State.clearRequests, hv, hw, hl]
    rfl
  · rw [hds d, hl]
    rfl
  · rw [hl] at hlog'
    exact AsRunLog.SameRecords.trans hlog hlog'

end Sys2Proof.Machine
end


section
/-! The obligation about CLEAR: the state its owners leave, carried through what is left to do. -/

namespace Sys2Proof.Machine

variable {s t u : State} {d : DeckNo}

/-! ### The emptied state -/

theorem State.emptied_emptied {c v : State} {q : Vector (Option DuckRequest) 4} {l : List AirExpiry} {ds : Vector Deck 4} {tags : List Nat}
    (hrecords : ∀ r ∈ c.records, r.state = .clearing ∧ r.tag ∈ tags) (hleft : c.Leftover) (hq : ∀ d : DeckNo, q[d] = none)
    (hds : ∀ d : DeckNo, ds[d] = { c.deck d with storeFlag := false }) : (c.emptied v q l ds).Emptied tags where
  records := hrecords
  reader := ⟨rfl, rfl, rfl⟩
  entries := fun e => Vector.getElem_replicate e.isLt
  decks := fun d => ⟨hq d, Vector.getElem_replicate d.isLt, by
    have hd : (c.emptied v q l ds).deck d = { c.deck d with storeFlag := false } := hds d
    rw [hd]⟩
  leftover := hleft

/-- An item sounds on in the emptied state, its duck request withdrawn. -/
theorem State.Sounds.emptied {tag : Nat} {x : Deck} {y : Option DuckRequest} {v : State} {q : Vector (Option DuckRequest) 4}
    {l : List AirExpiry} {ds : Vector Deck 4} (h : s.Sounds d tag x y) (hq : ∀ d : DeckNo, q[d] = none)
    (hds : ∀ d : DeckNo, ds[d] = { s.deck d with storeFlag := false }) : (s.emptied v q l ds).Sounds d tag x none := by
  have hdeck (e : DeckNo) : (s.emptied v q l ds).deck e = { s.deck e with storeFlag := false } := hds e
  exact
    { live := h.live
      state := by rw [hdeck]; exact h.state
      fadeIn := by rw [hdeck]; exact h.fadeIn
      fadeOut := by rw [hdeck]; exact h.fadeOut
      bound := by rw [hdeck]; exact h.bound
      request := hq d
      only := fun e he => h.only e (by rw [hdeck] at he; exact he)
      present := h.present
      mine := h.mine
      sounding := h.sounding }

theorem State.emptied_group (c v : State) (q : Vector (Option DuckRequest) 4) (l : List AirExpiry) (ds : Vector Deck 4) (a : Fin 3) :
    (c.emptied v q l ds).monitor.groups[a] = (c.monitor.groups[a]).cleared c.isLive := by
  match a with
  | 0 => rfl
  | 1 => rfl
  | 2 => rfl

/-! ### CLEAR as a command -/

theorem exec_takeClear {h : Header} (hs : s.Takes h) : exec (.clear h) s = .next ((s.onHearing h).takeClear).finish := by
  obtain ⟨⟨hrun, -⟩, -⟩ := id hs
  rw [exec_clear hrun, State.hearClear, hs.heard]

/-- The window judged before a CLEAR leaves everything but bus, log and monitor. -/
theorem State.monitorWindowAt_parts (s : State) : s.monitorWindowAt.records = s.records ∧ s.monitorWindowAt.decks = s.decks
    ∧ s.monitorWindowAt.mix = s.mix ∧ s.monitorWindowAt.work = s.work ∧ s.monitorWindowAt.clock = s.clock ∧ s.monitorWindowAt.pair = s.pair
    ∧ s.monitorWindowAt.cfg = s.cfg ∧ s.monitorWindowAt.breaks = s.breaks ∧ s.log.SameRecords s.monitorWindowAt.log := by
  have hlog : s.log.SameRecords s.monitorWindowAt.log := by
    cases h : s.monitor.full with
    | false => rw [State.monitorWindowAt_eq_self h]; exact .refl _
    | true => rw [State.monitorWindowAt_full h]; exact s.log_handAll _
  obtain ⟨y, m, hframe⟩ := s.monitorWindowAt_frame
  generalize s.monitorWindowAt = w at hframe hlog ⊢
  subst hframe
  exact ⟨rfl, rfl, rfl, rfl, rfl, rfl, rfl, rfl, hlog⟩

/-- The records of the running order, each CLEARING or gone. -/
theorem State.clearRecords_all (hn : s.tags.Nodup) : ∀ v ∈ s.clearRecords.records, v.state = .clearing ∧ v.tag ∈ s.tags :=
  clearRecords_records s.tags s hn fun v hv => .inr (State.mem_tags.mpr ⟨v, hv, rfl⟩)

/-- An item on the air is given its fade in its record's turn, or keeps one that ends soon. -/
theorem State.clearRecords_item {r : CueRecord} (hn : s.tags.Nodup) (hr : r ∈ s.records) (hst : r.state = .onAir) (hd : r.deck = some d)
    {x : Deck} {q : Option DuckRequest} (h : s.Sounds d r.tag x q) :
    (x.state = .playing → x.fadeIn = none → x.fadeOut = none → s.clearRecords.Sounds d r.tag
      { x with state := .fading, fadeOut := some ⟨0, 480, r.law, ⟨.faded, .cleared⟩⟩ } none)
    ∧ (x.endsSoon = true → s.clearRecords.Sounds d r.tag x q) := by
  obtain ⟨before, behind, hsplit⟩ := List.append_of_mem (State.mem_tags.mpr ⟨r, hr, rfl⟩ : r.tag ∈ s.tags)
  have hnd := hn
  rw [hsplit, List.nodup_append, List.nodup_cons] at hnd
  obtain ⟨-, ⟨hbehind, -⟩, hbefore⟩ := hnd
  have hall : s.clearRecords = behind.foldl State.clearRecord ((before.foldl State.clearRecord s).clearRecord r.tag) := by
    have hfold : s.clearRecords = s.tags.foldl State.clearRecord s := rfl
    rw [hfold, hsplit, List.foldl_append, List.foldl_cons]
  obtain ⟨hs, hm⟩ := clearRecords_others before s (fun hb => hbefore _ hb _ (List.mem_cons_self ..) rfl) h
  obtain ⟨hfades, hkeeps⟩ := ((before.foldl State.clearRecord s).clearRecord_clears r.tag).item (clearRecords_nodup before s hn) (hm hr)
    hst hd hs
  rw [hall]
  exact ⟨fun hplay hin hout => (clearRecords_others behind _ hbehind (hfades hplay hin hout)).1,
    fun hsoon => (clearRecords_others behind _ hbehind (hkeeps hsoon)).1⟩

/-- Settles O32: the state that the owners leave is empty, and what departures leave to do brings nothing back. -/
theorem clearEmptiesTheEngine : Obligations.ClearEmptiesTheEngine := by
  intro s h hs ⟨_, hn⟩ hwork
  refine ⟨_, exec_takeClear hs, ?_⟩
  obtain ⟨hrecords, hdecks, hmix, hwork', hclock, hpair, hcfg, hbreaks, hlog⟩ := (s.onHearing h).monitorWindowAt_parts
  obtain ⟨v, q, l, ds, hclear, hq, hds, hlog'⟩ := (s.onHearing h).takeClear_eq
  rw [hclear]
  generalize (s.onHearing h).monitorWindowAt = w at hrecords hdecks hmix hwork' hclock hpair hcfg hbreaks hlog hds hlog' ⊢
  replace hrecords : w.records = s.records := hrecords
  replace hdecks : w.decks = s.decks := hdecks
  replace hmix : w.mix = s.mix := hmix
  replace hwork' : w.work = [] := hwork'.trans hwork
  replace hclock : w.clock = s.clock := hclock
  replace hpair : w.pair = s.pair := hpair
  replace hcfg : w.cfg = s.cfg := hcfg
  replace hbreaks : w.breaks = s.breaks := hbreaks
  replace hlog : s.log.SameRecords w.log := hlog
  have htags : w.tags = s.tags := congrArg (List.map CueRecord.tag) hrecords
  have hwn : w.tags.Nodup := htags ▸ hn
  have hleft : w.clearRecords.Leftover := clearRecords_leftover _ _ fun k hk => by rw [hwork'] at hk; cases hk
  have hempty := State.emptied_emptied (v := v) (l := l) (tags := s.tags) (fun r hr => htags ▸ State.clearRecords_all hwn r hr) hleft hq hds
  have hafter := State.after_clearRecords (s := w)
  have hitem {r : CueRecord} {d : DeckNo} := State.clearRecords_item (s := w) (r := r) (d := d) hwn
  generalize w.clearRecords = c at hds hlog' hleft hempty hafter hitem ⊢
  have hend := State.after_finish (s := c.emptied v q l ds)
  obtain ⟨hdone, hkeep⟩ := hempty.finish
    (P := fun t => ∀ (d : DeckNo) (tag : Nat) (x : Deck), (c.emptied v q l ds).Sounds d tag x none → t.Sounds d tag x none)
    (fun _ _ k hk d tag x hx => k.sounds (hk d tag x hx)) (fun _ _ hk d tag x hx => (hk d tag x hx).congr rfl rfl rfl) fun _ _ _ hx => hx
  have hlive : c.isLive = s.isLive := by rw [hafter.isLive_eq, State.isLive, hpair, State.isLive]
  have hgroup (a : Fin 3) : (c.emptied v q l ds).finish.monitor.groups[a] = (c.monitor.groups[a]).cleared s.isLive := by
    rw [hend.groups_eq, State.emptied_group, hlive]
  generalize (c.emptied v q l ds).finish = t at hend hdone hkeep hgroup ⊢
  refine ⟨hdone.records, fun r d hr hst hd hbound hmine honly => ?_, hdone.reader.1, hdone.reader.2.1, hdone.reader.2.2, hdone.entries,
    hend.breaksFull_eq, ?_, hdone.decks, fun a => ?_, ?_, ?_, ?_, ?_, ?_, ?_⟩
  · have hsounding : r.sounding = true := by
      rw [CueRecord.sounding, hst]
      rfl
    have hdeck : w.deck d = s.deck d := State.deck_congr hdecks d
    have hsounds (hs : (s.deck d).sounding = true) : w.Sounds d r.tag (s.deck d) s.mix.requests[d] :=
      (State.sounds_of_order hn hr hsounding hs hbound hmine honly).congr hrecords hdecks (by rw [hmix])
    have hmem : r ∈ w.records := hrecords ▸ hr
    refine ⟨fun hplay hin hout => ?_, fun f hfade hf hlen => ?_⟩
    · obtain ⟨hfades, -⟩ := hitem hmem hst hd (hsounds (Deck.sounding_of_playing hplay))
      have hx := hkeep d r.tag _ ((hfades hplay hin hout).emptied hq hds)
      exact ⟨hx.state, hx.fadeOut⟩
    · have hs : (s.deck d).sounding = true := by
        rw [Deck.sounding, hfade]
        rfl
      have hsoon : (s.deck d).endsSoon = true := by
        rw [Deck.endsSoon, hf]
        exact decide_eq_true hlen
      obtain ⟨-, hkeeps⟩ := hitem hmem hst hd (hsounds hs)
      have hx := hkeep d r.tag _ ((hkeeps hsoon).emptied hq hds)
      exact ⟨hx.state.trans hfade, hx.fadeOut.trans hf⟩
  · exact hend.reportPos_eq.trans (hafter.reportPos_eq.trans (by rw [hbreaks]))
  · rw [hgroup]
    exact ⟨rfl, rfl, rfl, rfl, rfl⟩
  · have hfirst : s.log.records <+: c.log.records := hlog.records ▸ hafter.appends
    have hmiddle : (c.emptied v q l ds).log.records = c.log.records := hlog'.records
    exact (hmiddle ▸ hfirst).trans hend.appends
  · exact hend.clock_eq.trans (hafter.clock_eq.trans hclock)
  · exact hend.pair_eq.trans (hafter.pair_eq.trans hpair)
  · exact hend.cfg_eq.trans (hafter.cfg_eq.trans hcfg)
  · exact hend.master_eq.trans (hafter.master_eq.trans (by rw [hmix]))
  · exact hend.levels_eq.trans (hafter.levels_eq.trans (by rw [hmix]))

end Sys2Proof.Machine
end
